-- ==== Sys2Proof/Word.lean ====
section
/-! DEFINITION. The plain words of the BLT4128: bytes, serial numbers, tree and line indices. -/

namespace Sys2Proof

/-- One byte of a link, of a packet or of a burst. -/
abbrev Byte := BitVec 8

/-- The 48-bit serial number of a home unit (Table 3, "serial"). -/
abbrev Serial := BitVec 48

/-- A tree, 0..3 (00_scope.md, Table 1). -/
abbrev TreeId := Fin 4

/-- A line index, 0..127: the number of a home slot on its tree (Table 3, "line index"). -/
abbrev Line := Fin 128

/-- The four trees, ascending. -/
def allTrees : List TreeId := List.finRange 4

/-- The 128 lines of a tree, ascending. -/
def allLines : List Line := List.finRange 128

/-- The next tree round, 3 wrapping to 0 (R142). -/
def nextTree (t : TreeId) : TreeId := t + 1

/-- The next line round, 127 wrapping to 0 (R81, R90, R138). -/
def nextLine (l : Line) : Line := l + 1

end Sys2Proof
end

