-- ==== Sys2Proof/Machine/Checks.lean ====
section
/-! DEFINITION. Fields of whole bytes and the two check codes (R16). -/

namespace Sys2Proof.Machine

/-- The number whose bytes are given, most significant byte first (R16). -/
def natOf (bytes : List Byte) : Nat := bytes.foldl (fun n b => 256 * n + b.toNat) 0

/-- A number in `n` bytes, most significant byte first (R16). -/
def bytesOf : Nat → Nat → List Byte
  | 0, _ => []
  | n + 1, v => BitVec.ofNat 8 (v / 256 ^ n) :: bytesOf n v

/-- One bit of a check of `w` bits: shift out the most significant bit and subtract the polynomial when it was set (R16). -/
def checkBit {w : Nat} (poly c : BitVec w) : BitVec w := if c.msb then (c <<< 1) ^^^ poly else c <<< 1

/-- Eight bits of a check. -/
def checkEight {w : Nat} (poly c : BitVec w) : BitVec w :=
  (List.range 8).foldl (fun c _ => checkBit poly c) c

/-- The 16-bit check: polynomial 1021h, initial value FFFFh, sent as the remainder (R16). -/
def check16 (bytes : List Byte) : BitVec 16 :=
  bytes.foldl (fun (c : BitVec 16) b => checkEight 0x1021#16 (c ^^^ (b ++ 0#8))) 0xFFFF#16

/-- The 32-bit burst check: polynomial 04C11DB7h, initial value FFFFFFFFh, sent as the remainder inverted (R16). -/
def check32 (bytes : List Byte) : BitVec 32 :=
  ~~~ (bytes.foldl (fun (c : BitVec 32) b => checkEight 0x04C11DB7#32 (c ^^^ (b ++ 0#24))) 0xFFFFFFFF#32)

/-- Whether the last four bytes are the burst check of those before them (R15, R16). -/
def goodBurstCheck (bytes : List Byte) : Bool :=
  natOf (bytes.drop (bytes.length - 4)) = (check32 (bytes.take (bytes.length - 4))).toNat

end Sys2Proof.Machine
end

