-- ==== Sys2Proof/Config.lean ====
section
/-! DEFINITION. What every BLT4128 fixes (the constants of the manual) and the values the manual leaves open
(opaque constants, which nothing can evaluate). -/

namespace Sys2Proof

/-- A frame number is 32 bits wide (R1). -/
def Config.frameNumbers : Nat := 4294967296
/-- A frame is 15,625 SU (1.1 Time base). -/
def Config.frameSU : Nat := 15625
/-- One second is 4,000 frames (00_scope.md, Conventions; R32). -/
def Config.framesPerSecond : Nat := 4000
/-- A line-message queue holds up to 64 entries (R7). -/
def Config.messageCap : Nat := 64
/-- A downstream frame carries up to 16 line messages (R8). -/
def Config.messagesPerFrame : Nat := 16
/-- A ranging window is 384 SU (R15, R78). -/
def Config.rangingWindow : Nat := 384
/-- The RANGING grant is 128 SU long and starts 128 SU into its window (R15, R78). -/
def Config.rangingLength : Nat := 128
/-- The search window starts at offset 15,049 (R79). -/
def Config.searchStart : Nat := 15049
/-- The probe window starts at offset 15,561 (R79). -/
def Config.probeStart : Nat := 15561
/-- A hold lasts 4,000 frames (R74). -/
def Config.holdFrames : Nat := 4000
/-- A first overrun costs 400 cooldown frames (R100). -/
def Config.cooldownFrames : Nat := 400
/-- The watch period is 64 receive frames (R106). -/
def Config.watchPeriod : Nat := 64
/-- The downstream reserve of one tree, in blocks (R131). -/
def Config.downReserve : Nat := 2048
/-- The uplink reserve of one tree, in blocks (R131). -/
def Config.upReserve : Nat := 1024
/-- The shared region, in blocks (R131). -/
def Config.sharedRegion : Nat := 20480
/-- A home queue or a broadcast queue holds at most 512 blocks (R133, R134). -/
def Config.queueCap : Nat := 512
/-- The close queue has 1,024 positions besides the MARK position (R156). -/
def Config.closeCap : Nat := 1024
/-- The sum of the broadcast packets of one frame is at most 30,000 bytes (R137). -/
def Config.broadcastLimit : Nat := 30000
/-- The notice set takes entries for single lines while it holds fewer than 185 (R190). -/
def Config.noticeSingles : Nat := 185
/-- The largest value of the byte counts of an account (R17, Table 1-9). -/
def Config.byteMax : Nat := 281474976710655
/-- The largest value of a 32-bit count (R17, R40, R92, R144, R156, R166, R192). -/
def Config.countMax : Nat := 4294967295
/-- The sequence number at which the journal stops (R167). -/
def Config.lastSequence : Nat := 4294967295
/-- An erase batch makes at most 64 suspensions (R180). -/
def Config.suspendMax : Nat := 64
/-- A journal sector has 512 slots (R164). -/
def Config.slotsPerSector : Nat := 512

/-- What a program that was cut off by a reset (R181), or that timed out (R164, R168), left in its journal slot:
all bytes FFh, a whole copy of the record, or a partial write. -/
inductive ProgramRemains where
  | blank | whole | damaged
  deriving DecidableEq, Repr, Inhabited

/-- What an erase that was cut off (R181) or that timed out (R179) left of one slot of its sector. -/
inductive EraseRemains where
  | asItWas | blank | damaged
  deriving DecidableEq, Repr, Inhabited

/-- FREE VALUE (log entry 1). R181: "The slot of an interrupted program may be left ERASED, whole or torn"; R164 leaves
the contents of a BAD slot open in the same way. Applied to `State.freeCount`, which counts the draws. -/
opaque Config.programRemains : Nat → ProgramRemains

/-- FREE VALUE (log entry 2). R181: a sector whose erase was interrupted "may be left with any mixture of erased, whole
and torn slots"; R179 for an erase that timed out. Applied to `State.freeCount` and to the slot number 0..511. -/
opaque Config.eraseRemains : Nat → Nat → EraseRemains

/-- FREE VALUE (log entry 3). R196: a low level on the reset input shorter than 1 µs "may be taken as a reset or
ignored". Applied to `State.freeCount`. -/
opaque Config.shortPulseResets : Nat → Bool

end Sys2Proof
end

