-- ==== Sys2Proof/Syntax.lean ====
section
/-! DEFINITION. The commands of the BLT4128: one constructor of `Instr` for each row of spec/opcode_table.json, with the
operands the manual gives the request or the event. -/

namespace Sys2Proof

/-- The two management links (R184, R185). -/
inductive Link where
  | controller | craft
  deriving DecidableEq, Repr, Inhabited

/-- What every request carries besides its arguments: the link it arrived on, its tag (0 on the craft link, whose lines
carry none) and its tree field (Table 1-8; R185: `all` stands for 15). -/
structure Head where
  link : Link
  tag  : Byte
  tree : Nat
  deriving DecidableEq, Repr, Inhabited

/-- The enrolment mode of a tree (R40), in the order that codes it (R188). -/
inductive Mode where
  | listed | opened
  deriving DecidableEq, Repr, Inhabited

/-- The twelve optional settings of SET_TREE, in the order of the table of R195. -/
structure TreeFields where
  mode           : Option Mode := none
  discovery      : Option Bool := none
  di             : Option Nat  := none
  hold           : Option Nat  := none
  reach          : Option Nat  := none
  ert            : Option Nat  := none
  overhead       : Option Nat  := none
  statusInterval : Option Nat  := none
  rise           : Option Nat  := none
  fall           : Option Nat  := none
  autoSearch     : Option Bool := none
  span           : Option Nat  := none
  deriving DecidableEq, Repr, Inhabited

/-- Any of the six service-record fields of Table 4-1, each with a value or nothing: the arguments of SET_SERVICE and
SET_DEFAULT_SERVICE (R67, R70), and the staged part of a service record (R65). -/
structure ServiceChange where
  cr : Option Nat := none
  pr : Option Nat := none
  ba : Option Nat := none
  tr : Option Nat := none
  w  : Option Nat := none
  dw : Option Nat := none
  deriving DecidableEq, Repr, Inhabited

/-- A change point of the tariff schedule (R150). -/
structure ChangePoint where
  second : Nat
  band   : Nat
  deriving DecidableEq, Repr, Inhabited

/-- The light of a burst's guard at the receiver, SU by SU in the four SUs of the guard: true where the SU was lit (R13, R94). -/
abbrev GuardLight := List Bool

/-- A DATA or STATUS burst found by the receiver (R94): its offset error in bit times, the light of its guard, and the byte
space that follows its overhead (R13, R95). -/
structure Burst where
  e     : Int
  guard : GuardLight
  bytes : List Byte
  deriving DecidableEq, Repr, Inhabited

/-- A burst of ranging form found in a ranging window (R98): its offset error in bit times and its 20 bytes (R15). -/
structure RangingBurst where
  e     : Int
  bytes : List Byte
  deriving DecidableEq, Repr, Inhabited

/-- A stretch `[lo, hi)` of SU offsets of a receive frame (00_scope.md, Numbers). -/
structure Stretch where
  lo : Nat
  hi : Nat
  deriving DecidableEq, Repr, Inhabited

/-- Why the controller-link receiver discards a frame at one of its bytes (R184): the two length bytes give a length
outside 3..1,023, or the frame check fails at the last byte. -/
inductive DiscardCause where
  | badLength (b1 b2 : Byte)
  | badCheck
  deriving DecidableEq, Repr, Inhabited

/-- The commands: one constructor per row of spec/opcode_table.json, in the table's order. A request constructor is the
arrival of that request (R184, R185); any other constructor is the event of its row. -/
inductive Instr where
  -- the requests of the catalogue (R189)
  | identify (h : Head)
  | restartPart (h : Head)
  | setClock (h : Head) (day second : Nat)
  | readClock (h : Head)
  | setPermission (h : Head) (kind : Nat) (allow : Bool)
  | readPermission (h : Head)
  | setTree (h : Head) (f : TreeFields)
  | readTree (h : Head)
  | restartTree (h : Head)
  | holdTree (h : Head)
  | releaseHold (h : Head)
  | setDefaultService (h : Head) (f : ServiceChange)
  | allowSerial (h : Head) (x : Serial)
  | disallowSerial (h : Head) (x : Serial)
  | barSerial (h : Head) (x : Serial)
  | pinSerial (h : Head) (x : Serial) (pin : Bool)
  | readDirectory (h : Head) (start : Option Nat)
  | readHome (h : Head) (line : Nat)
  | dismissHome (h : Head) (line : Nat)
  | setService (h : Head) (line : Nat) (f : ServiceChange)
  | readService (h : Head) (line : Nat)
  | startSearch (h : Head)
  | abortSearch (h : Head)
  | readSearch (h : Head)
  | releaseHome (h : Head) (line : Nat)
  | expelHome (h : Head) (line : Nat)
  | setTariff (h : Head) (points : List ChangePoint)
  | readTariff (h : Head)
  | setQuota (h : Head) (line quota warn : Option Nat)
  | resetPeriod (h : Head) (line : Option Nat)
  | closeAll (h : Head)
  | readUsage (h : Head) (line : Option Nat)
  | readJournal (h : Head)
  | seekJournal (h : Head) (seq : Nat)
  | exportDone (h : Head) (seq : Nat)
  | readJournalState (h : Head)
  | readBuffers (h : Head) (line : Option Nat)
  -- the links
  | unknownRequest (h : Head) (kind : Byte)
  | frameDiscarded (why : DiscardCause)
  | byteGapTimeout
  | busyReply (h : Head) (kind : Byte)
  | transmitComplete (link : Link)
  -- resets
  | powerOn
  | resetInput (lowNs : Nat)
  | resetEnd
  | partReset
  -- frame starts and what comes with them
  | frameStart (t : TreeId)
  | holdLapsed (t : TreeId)
  | cooldownEnd (t : TreeId) (l : Line)
  | discoveryWindowOpen (t : TreeId)
  | callReoffer (t : TreeId)
  | enrolMessageRetry (t : TreeId) (l : Line)
  | dismissRetry (t : TreeId) (l : Line)
  | driftDelayRetry (t : TreeId) (l : Line)
  | holdExpiryRetry (t : TreeId) (l : Line)
  | returnRangingRetry (t : TreeId) (l : Line)
  | overrunMuteRetry (t : TreeId) (l : Line)
  | searchOfferRetry (t : TreeId)
  | releaseListDrain (t : TreeId)
  | releaseTry (t : TreeId) (l : Line)
  -- receive time
  | grantOutcome (t : TreeId) (l : Line) (found : Option Burst)
  | overrun (t : TreeId) (l : Line) (guard : GuardLight) (runEnd : Nat)
  | rangingOutcome (t : TreeId) (l : Line) (found : Option RangingBurst)
  | hello (t : TreeId) (offset : Nat) (bytes : List Byte)
  | quietWindowEnd (t : TreeId)
  | receiveFrameEnd (t : TreeId) (light : List Stretch)
  | watchPeriodEnd (t : TreeId)
  | spanEnd (t : TreeId)
  -- seconds
  | secondEvent
  | refusedEntryExpiry (x : Serial)
  | holdExpiry (t : TreeId) (l : Line)
  -- the trunk
  | trunkPacketArrival (t : TreeId) (l : Line) (broadcast : Bool) (bytes : List Byte)
  | trunkTransmitComplete
  | trunkPauseRequest (duration : Nat)
  | trunkHoldEnd
  -- the journal
  | programStart
  | programVerify (sector : Fin 32) (slot : Fin 512)
  | programTimeout (sector : Fin 32) (slot : Fin 512)
  | acceptWindowEnd
  | eraseComplete (sector : Fin 32)
  | eraseTimeout (sector : Fin 32)
  | suspendEvent
  | scanComplete
  -- a byte of a link
  | byteReceived (link : Link) (b : Byte)
  deriving DecidableEq, Repr

end Sys2Proof
end

