-- ==== Sys2Proof/Machine/State.lean ====
section
/-! DEFINITION. The state of the BLT4128 as plain data, block by block (00_scope.md, Table 1), its faults and refusals,
and its value right after reset. The frame number of R1 is 32 bits wide and wraps; a frame that another item refers to (a plan,
a target, the m of a test) is held as the count of frames since the last part reset (log entry 4). -/

namespace Sys2Proof.Machine

/-! ## The line framer (01_the_tree_line.md) -/

/-- Which step of the engine a DELAY carries out (the queue tells the offering block when its message goes out, R41, R58). `abandoned`, the model's
own mark (log entry 50), is the use of a DELAY still unsent whose context has been released while its slot stayed: no context waits for it. -/
inductive DelayUse where
  | provisional | final | drift | abandoned
  deriving DecidableEq, Repr, Inhabited

/-- A line message (Table 1-2, Table 1-5). A CALL carries its start offset, its window length and its target frame (R7,
R11). A MUTE or UNMUTE of an isolation-search test names the step that offered it (R115), any other none. -/
inductive LineMsg where
  | call (start length target : Nat)
  | assign (x : Serial) (l : Line)
  | delay (l : Line) (value : Nat) (use : DelayUse)
  | mute (l : Line) (step : Option Nat)
  | unmute (l : Line) (step : Option Nat)
  | dismiss (l : Line)
  | dismissAll
  deriving DecidableEq, Repr, Inhabited

/-- The kinds of grant, in the order that codes them (R4, Table 1-4). -/
inductive GrantKind where
  | data | status | ranging
  deriving DecidableEq, Repr, Inhabited

/-- One grant of a plan (R4). -/
structure Grant where
  line   : Line
  kind   : GrantKind
  start  : Nat
  length : Nat
  deriving DecidableEq, Repr, Inhabited

/-- A packet is its bytes; its length is 64..2,000 (R5, R132). -/
abbrev Packet := List Byte

/-- A downstream frame as sent (R3): its 32-bit frame number, its grant map with the O in force, its line messages and its data area (a packet for
a line, or a broadcast packet, which has none). -/
structure DownFrame where
  frame    : Nat
  overhead : Nat
  grants   : List Grant
  messages : List LineMsg
  packets  : List (Option Line × Packet)
  deriving DecidableEq, Repr, Inhabited

/-- The line framer of a tree: its line-message queue by class, each class in the order offered (R7), and the downstream
frame it sent last (R3). -/
structure Framer where
  urgent   : List LineMsg
  ordinary : List LineMsg
  sent     : Option DownFrame
  deriving DecidableEq, Repr, Inhabited

/-! ## The home table (02_home_table_and_serial_directory.md) -/

/-- The states of a home slot (Table 2-1), in the order that codes them. -/
inductive HomeState where
  | free | assigned | ranging | active | cooldown | lost | quarantined
  deriving DecidableEq, Repr, Inhabited

/-- The sign of a drift run (Table 2-1, R58). -/
inductive DriftSign where
  | late | early
  deriving DecidableEq, Repr, Inhabited

/-- A drift run: its length 0..8, and its sign when it is above 0 (Table 2-1). -/
structure DriftRun where
  length : Nat := 0
  sign   : Option DriftSign := none
  deriving DecidableEq, Repr, Inhabited

/-- Why a slot is QUARANTINED (Table 2-1). -/
inductive QuarantineCause where
  | overrun | search
  deriving DecidableEq, Repr, Inhabited

/-- The six service-record fields with their live values (Table 4-1). -/
structure ServiceFields where
  cr : Nat
  pr : Nat
  ba : Nat
  tr : Nat
  w  : Nat
  dw : Nat
  deriving DecidableEq, Repr, Inhabited

/-- A service record (R65): live part with credit K and backlog B, staged part, and the effective rates and throttle of the
last plan built, which READ_SERVICE reports (R69). -/
structure ServiceRecord where
  live      : ServiceFields
  k         : Nat
  b         : Nat
  staged    : ServiceChange
  crEff     : Nat
  prEff     : Nat
  throttled : Bool
  deriving DecidableEq, Repr, Inhabited

/-- Quota states (R160). -/
inductive QuotaState where
  | normal | warned | throttled
  deriving DecidableEq, Repr, Inhabited

/-- The three counts of an account, a record or the carries (R17, R146). -/
structure Counts where
  up     : Nat := 0
  down   : Nat := 0
  outage : Nat := 0
  deriving DecidableEq, Repr, Inhabited

/-- An open account (R146) with the period bytes, quota, warn level and quota state the slot holds beside it (R160). -/
structure Account where
  serial     : Serial
  start      : Nat
  band       : Nat
  clockUnset : Bool
  merged     : Bool
  throttled  : Bool
  counts     : Counts
  carries    : Counts
  period     : Nat
  quota      : Nat
  warn       : Nat
  quotaState : QuotaState
  deriving DecidableEq, Repr, Inhabited

/-- Record kinds, in the order that codes them (Table 1-9). -/
inductive RecordKind where
  | interval | final | treeRestart | mark
  deriving DecidableEq, Repr, Inhabited

/-- A billing record without its sequence number (R153, Table 1-9). A MARK carries its mark in `counts.up` (R175). -/
structure Record where
  tree       : TreeId
  line       : Line
  kind       : RecordKind
  band       : Nat
  clockUnset : Bool
  merged     : Bool
  throttled  : Bool
  moved      : Bool
  serial     : Serial
  start      : Nat
  stop       : Nat
  counts     : Counts
  deriving DecidableEq, Repr, Inhabited

/-- An account position (R146): empty, one open account, or a close due of one or two records (R155). -/
inductive AccountPos where
  | empty
  | opened (a : Account)
  | due (first : Record) (second : Option Record)
  deriving DecidableEq, Repr, Inhabited

/-- How far the drift DELAY of R61 has come, which R58 reads: none under way, accepted and unsent, or sent in a frame. -/
inductive DriftDelay where
  | none | unsent | sent (frame : Nat)
  deriving DecidableEq, Repr, Inhabited

/-- Where the hold expiry of a LOST slot stands: not reported, reported by the directory (R33), or waiting for its DISMISS
to be accepted (R60). -/
inductive Expiry where
  | quiet | told | waits
  deriving DecidableEq, Repr, Inhabited

/-- A home slot: the fields of Table 2-1; its account position (R146); its home queue, deficit, throttle allowance and
tail-drop count (R133, R138, R139); and two marks the rules need (R58, R60). -/
structure Slot where
  state      : HomeState
  link       : Option Nat
  eqd        : Nat
  miss       : Nat
  drift      : DriftRun
  misplaced  : Nat
  overruns   : Nat
  cooldown   : Nat
  cause      : Option QuarantineCause
  muted      : Bool
  sinceGrant : Nat
  service    : Option ServiceRecord
  account    : AccountPos
  queue      : List Packet
  deficit    : Nat
  allowance  : Nat
  tailDrops  : Nat
  driftDelay : DriftDelay
  expiry     : Expiry
  deriving DecidableEq, Repr, Inhabited

/-- The FREE values of Table 2-1, with an empty account position and an empty home queue (R18, R25, R131). -/
def Slot.free : Slot :=
  { state := .free, link := none, eqd := 0, miss := 0, drift := {}, misplaced := 0, overruns := 0, cooldown := 0,
    cause := none, muted := false, sinceGrant := 0, service := none, account := .empty, queue := [], deficit := 0,
    allowance := 0, tailDrops := 0, driftDelay := .none, expiry := .quiet }

/-! ## The serial directory (02_home_table_and_serial_directory.md) -/

/-- The origin of a PRESENT entry (Table 2-3): LISTED with the binding the EXPECTED entry had, or OPEN. -/
inductive Origin where
  | listed (binding : Option TreeId)
  | opened
  deriving DecidableEq, Repr, Inhabited

/-- The state of a directory entry with the fields that state uses (R26, Table 2-3). -/
inductive DirBody where
  | expected (binding : Option TreeId) (pinned : Bool)
  | present (tree : TreeId) (line : Line) (origin : Origin) (pinned : Bool) (age : Option Nat)
  | refused (tree : TreeId) (age : Nat)
  | barred (age : Option Nat)
  deriving DecidableEq, Repr, Inhabited

/-- A directory entry (Table 2-3). -/
structure DirEntry where
  serial : Serial
  body   : DirBody
  deriving DecidableEq, Repr, Inhabited

/-! ## Tree settings (R195, R70, R160) -/

/-- What SET_TREE, SET_DEFAULT_SERVICE and SET_QUOTA set for a tree: the twelve settings of R195, the default service record
(R70) and the quota defaults (R160). -/
structure Settings where
  mode           : Mode
  discovery      : Bool
  di             : Nat
  hold           : Nat
  reach          : Nat
  ert            : Nat
  overhead       : Nat
  statusInterval : Nat
  rise           : Nat
  fall           : Nat
  autoSearch     : Bool
  span           : Nat
  service        : ServiceFields
  quota          : Nat
  warn           : Nat
  deriving DecidableEq, Repr, Inhabited

/-! ## The enrolment engine (03_enrolment_and_ranging.md) -/

/-- Context kinds (R41). -/
inductive ContextKind where
  | new | returning
  deriving DecidableEq, Repr, Inhabited

/-- Context phases (R41). -/
inductive Phase where
  | assignWait | delayWait | rangeWait | finalWait | verifyWait
  deriving DecidableEq, Repr, Inhabited

/-- A busy enrolment context (R41). `accepted` says whether the queue has taken the DELAY of the present phase (R49, R54);
`frame` is the frame of the grant it awaits, once the planner has told it (R52). -/
structure Context where
  serial      : Serial
  line        : Line
  kind        : ContextKind
  coarse      : Option Nat
  provisional : Nat
  prior       : Option Line
  attempts    : Nat
  phase       : Phase
  accepted    : Bool
  frame       : Option Nat
  deriving DecidableEq, Repr, Inhabited

/-- The window record (R40): target frame, the D and ERT in force when the window was scheduled, and whether the phase is OPEN
(else SCHEDULED). -/
structure Window where
  target : Nat
  reach  : Nat
  ert    : Nat
  opened : Bool
  deriving DecidableEq, Repr, Inhabited

/-- The enrolment engine of a tree (R40). `refusedCall` is the CALL that R43 offers again one frame later;
`dismissHeld` and `driftHeld` are the offers held for lines while the queue refuses them. -/
structure Engine where
  counter     : Nat
  window      : Option Window
  refusedCall : Option Window
  contexts    : Vector (Option Context) 4
  opened      : Nat
  skipped     : Nat
  taken       : Nat
  collisions  : Nat
  deferred    : Nat
  dismissHeld : List Line
  driftHeld   : List (Line × Nat)
  deriving DecidableEq, Repr

/-! ## The upstream planner (04_the_upstream_planner.md) -/

/-- The summary of the last plan built (R72). -/
structure Summary where
  frame         : Nat := 0
  span          : Nat := 0
  dataGrants    : Nat := 0
  statusGrants  : Nat := 0
  rangingGrants : Nat := 0
  granted       : Nat := 0
  dark          : Nat := 0
  waited        : Nat := 0
  dropped       : Nat := 0
  deriving DecidableEq, Repr, Inhabited

/-- The planner of a tree (R71). `hold` is the hold count while HOLDING, none while NONE; `quiet` is the first frame and the
length Q of the pending window; `remainder` the frame and the length of the carried remainder. -/
structure Planner where
  rotation    : Line
  hold        : Option Nat
  quiet       : Option (Nat × Nat)
  remainder   : Option (Nat × Nat)
  rangingList : List Line
  verifyList  : List Line
  summary     : Summary
  deriving DecidableEq, Repr, Inhabited

/-- A finished plan (R91): the frame's grants in ascending start offset, its O and ERT, its quiet portion, the starts of its
ranging windows, and whether the search and probe windows stand. -/
structure Plan where
  frame      : Nat
  overhead   : Nat
  ert        : Nat
  grants     : List Grant
  quiet      : Nat
  windows    : List Nat
  search     : Bool
  probe      : Bool
  deriving DecidableEq, Repr, Inhabited

/-! ## The burst receiver (05_burst_reception_and_the_light_watch.md) -/

/-- What the receiver has reported of a listed grant: nothing yet, missed (or no ranging burst), or found with the start of the
burst in SU (negative when it lies before the frame) and its onset. -/
inductive GrantMark where
  | pending | missed | found (start : Int) (clean : Bool)
  deriving DecidableEq, Repr, Inhabited

/-- A grant of an expected-arrival list, its outcome, and whether an overrun has been charged on it (R92, R96, R99). -/
structure ListedGrant where
  grant   : Grant
  mark    : GrantMark
  charged : Bool
  deriving DecidableEq, Repr, Inhabited

/-- The expected-arrival list of one receive frame (R92) with the outcome counts of its report (R104). -/
structure ArrivalList where
  plan     : Plan
  grants   : List ListedGrant
  expected : Nat
  bad      : Nat
  deriving DecidableEq, Repr, Inhabited

/-- The burst receiver of a tree (R92): lists, oldest first; six receive counts; the lines whose overrun MUTE waits (R102);
whether an attributed light run passes into the next receive frame (R99); the last receive frame that ended. -/
structure Receiver where
  lists      : List ArrivalList
  arrived    : Nat
  missed     : Nat
  bad        : Nat
  overruns   : Nat
  stale      : Nat
  darkFrames : Nat
  muteWaits  : List Line
  carryRun   : Bool
  lastEnded  : Option Nat
  deriving DecidableEq, Repr, Inhabited

/-- Tree rogue states (R105). -/
inductive Rogue where
  | clear | suspect | searching | foreign | unresolved
  deriving DecidableEq, Repr, Inhabited

/-- The counts of a watch period: D, N, Bb and the frames counted (R105). -/
structure WatchCounts where
  d      : Nat := 0
  n      : Nat := 0
  bb     : Nat := 0
  frames : Nat := 0
  deriving DecidableEq, Repr, Inhabited

/-- The light watch of a tree (R105). `periodDue` holds the first frame of a period whose last report has been counted and
whose end has not been judged yet (R107); `endedFirst`, the model's own, marks that a search has ended while that period's
end was due (R109; log entry 63). -/
structure Watch where
  rogue     : Rogue
  first     : Nat
  current   : WatchCounts
  last      : WatchCounts
  lastFirst : Nat
  periodDue : Option Nat
  endedFirst : Bool
  deriving DecidableEq, Repr, Inhabited

/-! ## The isolation search (06_isolation_search_and_quarantine.md) -/

/-- A group of snapshot positions `[lo, hi)` (R111). -/
structure Group where
  lo : Nat
  hi : Nat
  deriving DecidableEq, Repr, Inhabited

/-- Test kinds (R111). -/
inductive TestKind where
  | verify | split | single | confirm
  deriving DecidableEq, Repr, Inhabited

/-- The current test (R111, R115, R116). `step` numbers the step whose messages are awaited; a retry entry is a line and the
flag value it is to take; `m` is none before frame 0. -/
structure Test where
  kind      : TestKind
  group     : Group
  step      : Nat
  observing : Bool
  retry     : List (Line × Bool)
  awaited   : List Line
  m         : Option Nat
  span      : Nat
  counted   : Nat
  lit       : Nat
  deriving DecidableEq, Repr, Inhabited

/-- Search outcomes (R111). -/
inductive SearchOutcome where
  | done | foreign | unresolved | aborted
  deriving DecidableEq, Repr, Inhabited

/-- The last outcome with the receive frame at which it was decided and the counts it ended with (R111, R117). -/
structure LastSearch where
  outcome     : SearchOutcome
  frame       : Option Nat
  quarantined : Nat
  restarts    : Nat
  deriving DecidableEq, Repr, Inhabited

/-- The isolation search of a tree (R111). The stack's first group is its top. The span length setting stands in `Settings`. -/
structure Search where
  running     : Bool
  snapshot    : List Line
  stack       : List Group
  test        : Option Test
  steps       : Nat
  restarts    : Nat
  quarantined : Nat
  release     : List Line
  pending     : List Line
  last        : Option LastSearch
  deriving DecidableEq, Repr, Inhabited

/-! ## Traffic buffers (07_traffic_buffers.md) -/

/-- The traffic buffer's queues and counts of one tree (R134, R138, R141, R144). The holds H_t and U_t are computed from the
queues (Machine/Traffic.lean). -/
structure TreeTraffic where
  broadcast      : List Packet
  uplink         : List (Line × Packet)
  rotation       : Line
  openTurn       : Bool
  noHome         : Nat
  broadcastDrops : Nat
  flushed        : Nat
  uplinkDrops    : Nat
  deriving DecidableEq, Repr, Inhabited

/-- Everything one tree holds. `started`: its frame-start event of the present frame number has been taken (R1);
`lastTry`: the last line whose context try was taken at this frame start (R41). -/
structure TreeState where
  started  : Bool
  lastTry  : Option Line
  settings : Settings
  framer   : Framer
  slots    : Vector Slot 128
  engine   : Engine
  planner  : Planner
  receiver : Receiver
  watch    : Watch
  search   : Search
  traffic  : TreeTraffic
  deriving DecidableEq, Repr

/-- The trunk port and the part-wide counts of the traffic buffer (R136, R142, R143, R144). `sending` is the tree whose head
packet is being sent; `held` the duration in µs of the hold in force; `lastPause` the duration in µs of the pause
request sent last. -/
structure Trunk where
  pauseOn       : Bool
  lastPause     : Option Nat
  sending       : Option TreeId
  pointer       : TreeId
  held          : Option Nat
  malformed     : Nat
  pauseRequests : Nat
  deriving DecidableEq, Repr, Inhabited

/-! ## The usage meter (08_usage_metering_and_tariffs.md) -/

/-- The day clock when set (R149). -/
structure Clock where
  day    : Nat
  second : Nat
  deriving DecidableEq, Repr, Inhabited

/-- The part-wide state of the usage meter: day clock, tariff schedule, close queue with its MARK position, the MARK being
programmed at the head, whether the head record is the record being programmed in the sense of R156 and R170, the due
list, and three counts (R149, R150, R156, R158). -/
structure Meter where
  clock          : Option Clock
  schedule       : List ChangePoint
  queue          : List Record
  mark           : Option Record
  headMark       : Option Record
  headHeld       : Bool
  due            : List (TreeId × Line)
  intervalCloses : Nat
  mergedCloses   : Nat
  dueCloses      : Nat
  deriving DecidableEq, Repr, Inhabited

/-! ## The billing journal (09_the_billing_journal.md) -/

/-- What the 40 bytes of a journal slot read as when they are judged (R164): all FFh, a whole record (a good record check over
the layout of Table 1-9) with its sequence number, or anything else. The bytes of a damaged slot are read by no request. -/
inductive Contents where
  | blank
  | whole (seq : Nat) (r : Record)
  | damaged
  deriving DecidableEq, Repr, Inhabited

/-- The states of a journal slot that is not ERASED (R164). -/
inductive CellState where
  | written | bad | torn
  deriving DecidableEq, Repr, Inhabited

/-- A journal slot that is not ERASED. -/
structure Cell where
  state    : CellState
  contents : Contents
  deriving DecidableEq, Repr, Inhabited

/-- Sector states (R165), in the order that codes them. -/
inductive SectorState where
  | erased | inUse | full | erasePending | retired
  deriving DecidableEq, Repr, Inhabited

/-- A sector's own items (R165). The retirement marker is non-volatile. -/
structure Sector where
  state        : SectorState
  bad          : Nat
  retireOnFill : Bool
  marker       : Bool
  deriving DecidableEq, Repr, Inhabited

/-- The journal's condition (R166). -/
inductive Condition where
  | scanning | ready | full | stopped
  deriving DecidableEq, Repr, Inhabited

/-- The causes of JOURNAL_FULL (R172). -/
inductive FullCause where
  | noSector | stopped
  deriving DecidableEq, Repr, Inhabited

/-- The causes of SECTOR_RETIRED (R171, R179). -/
inductive RetireCause where
  | fill | erase
  deriving DecidableEq, Repr, Inhabited

/-- A program operation under way: the record held, its sequence number and its slot (R166, R168). -/
structure Program where
  record : Record
  seq    : Nat
  sector : Fin 32
  slot   : Nat
  deriving DecidableEq, Repr, Inhabited

/-- Batch states (R166). -/
inductive BatchState where
  | none | gathering | erasing | suspending | suspended
  deriving DecidableEq, Repr, Inhabited

/-- The erase batch (R178): its state, its list, the sectors of the list whose step has not begun, the current sector (none
while a step waits for a running program), and the suspend count. -/
structure Batch where
  state    : BatchState
  list     : List (Fin 32)
  todo     : List (Fin 32)
  current  : Option (Fin 32)
  suspends : Nat
  deriving DecidableEq, Repr, Inhabited

/-- The billing journal (R164 to R166). `array` lists the slots that are not ERASED, by sector × 512 + slot, strictly rising;
an unlisted slot is ERASED. `late`, the model's own, holds the programs whose timeout has been taken, one a slot: the verify of
one of them may still come (R164, R168; log entry 70). -/
structure Journal where
  condition   : Condition
  cause       : Option FullCause
  writeSector : Option (Fin 32)
  writePos    : Nat
  next        : Nat
  highest     : Nat
  exportMark  : Nat
  requested   : Nat
  program     : Option Program
  late        : List Program
  batch       : Batch
  programmed  : Nat
  failures    : Nat
  erased      : Nat
  eraseFails  : Nat
  suspends    : Nat
  sectors     : Vector Sector 32
  array       : List (Nat × Cell)
  deriving DecidableEq, Repr

/-! ## The management links (10_management_links_and_messages.md) -/

/-- The request kinds of the catalogue, in the order of their codes (R189). -/
inductive ReqKind where
  | identify | restartPart | setClock | readClock | setPermission | readPermission | setTree | readTree | restartTree
  | holdTree | releaseHold | setDefaultService | allowSerial | disallowSerial | barSerial | pinSerial | readDirectory
  | readHome | dismissHome | setService | readService | startSearch | abortSearch | readSearch | releaseHome | expelHome
  | setTariff | readTariff | setQuota | resetPeriod | closeAll | readUsage | readJournal | seekJournal | exportDone
  | readJournalState | readBuffers
  deriving DecidableEq, Repr, Inhabited

/-- Reply codes, in the order of their bytes (R187). -/
inductive Code where
  | done | accepted | clamped | busy | denied | badForm | badValue | notFound | conflict | full
  deriving DecidableEq, Repr, Inhabited

/-- Notice kinds, in the order of their codes (Table 10-1). -/
inductive NoticeKind where
  | partReady | homeActive | homeLost | homeGone | enrolFailed | outOfReach | treeFull | directoryFull | serialRefused
  | serialElsewhere | overrun | quarantined | darkLight | searchDone | quotaWarning | quotaReached | holdLapsed
  | sectorRetired | journalFull
  deriving DecidableEq, Repr, Inhabited

/-- The key line of a notice: a line, all lines (R190), or none. -/
inductive KeyLine where
  | none | all | line (l : Line)
  deriving DecidableEq, Repr, Inhabited

/-- The details of a notice's first occurrence (Table 10-1). -/
inductive Details where
  | none
  | partReady (condition : Condition) (highest exportMark : Nat)
  | homeActive (x : Serial) (kind : ContextKind) (delay : Nat) (prior : Option Line)
  | serial (x : Serial)
  | elsewhere (x : Serial) (tree : TreeId)
  | quarantined (x : Serial) (cause : QuarantineCause)
  | darkLight (d n bb : Nat)
  | searchDone (outcome : SearchOutcome) (quarantined restarts : Nat)
  | sectorRetired (sector : Fin 32) (cause : RetireCause)
  | journalFull (cause : FullCause)
  deriving DecidableEq, Repr, Inhabited

/-- An entry of the notice set (R190); its place is its place in the list. -/
structure Notice where
  kind    : NoticeKind
  tree    : Option TreeId
  line    : KeyLine
  count   : Nat
  details : Details
  deriving DecidableEq, Repr, Inhabited

/-! ### What the read requests answer -/

/-- READ_HOME (R24). -/
structure HomeView where
  state      : HomeState
  cause      : Option QuarantineCause
  serial     : Option Serial
  eqd        : Nat
  miss       : Nat
  drift      : DriftRun
  misplaced  : Nat
  overruns   : Nat
  cooldown   : Nat
  muted      : Bool
  sinceGrant : Nat
  holdLeft   : Option Nat
  closeDue   : Bool
  deriving DecidableEq, Repr, Inhabited

/-- READ_SERVICE (R69). -/
structure ServiceView where
  live      : ServiceFields
  k         : Nat
  b         : Nat
  crEff     : Nat
  prEff     : Nat
  throttled : Bool
  staged    : ServiceChange
  waiting   : Bool
  deriving DecidableEq, Repr, Inhabited

/-- A context as READ_SEARCH and READ_TREE report it: phase, attempts and line (R41). -/
structure ContextView where
  phase    : Phase
  attempts : Nat
  line     : Line
  deriving DecidableEq, Repr, Inhabited

/-- READ_TREE (R195; R40, R41, R72, R92, R105). -/
structure TreeView where
  settings  : Settings
  window    : Option Window
  opened    : Nat
  skipped   : Nat
  taken     : Nat
  collisions : Nat
  deferred  : Nat
  contexts  : List ContextView
  rotation  : Line
  hold      : Option Nat
  quiet     : Option (Nat × Nat)
  remainder : Option (Nat × Nat)
  rangings  : Nat
  verifies  : Nat
  summary   : Summary
  arrived   : Nat
  missed    : Nat
  bad       : Nat
  overruns  : Nat
  stale     : Nat
  darkFrames : Nat
  rogue     : Rogue
  first     : Nat
  current   : WatchCounts
  last      : WatchCounts
  lastFirst : Nat
  deriving DecidableEq, Repr, Inhabited

/-- The current test as READ_SEARCH reports it (R127). -/
structure TestView where
  kind      : TestKind
  group     : Group
  observing : Bool
  m         : Option Nat
  span      : Nat
  counted   : Nat
  lit       : Nat
  retry     : Nat
  awaited   : Nat
  deriving DecidableEq, Repr, Inhabited

/-- READ_SEARCH (R127). -/
structure SearchView where
  rogue       : Rogue
  running     : Bool
  snapshot    : List Line
  stack       : List Group
  test        : Option TestView
  restarts    : Nat
  quarantined : Nat
  release     : List Line
  pending     : List Line
  last        : Option LastSearch
  span        : Nat
  contexts    : List ContextView
  deriving DecidableEq, Repr, Inhabited

/-- An account position as READ_USAGE reports it (R163): for a close due, its records and their place in the due list. -/
inductive UsageView where
  | empty
  | opened (a : Account) (warningLevel : Nat)
  | due (first : Record) (second : Option Record) (place : Nat)
  deriving DecidableEq, Repr, Inhabited

/-- READ_USAGE for tree 15 (R156). -/
structure UsageSummary where
  queued         : Nat
  markWaits      : Bool
  dueLength      : Nat
  clock          : Option Clock
  band           : Nat
  intervalCloses : Nat
  mergedCloses   : Nat
  dueCloses      : Nat
  deriving DecidableEq, Repr, Inhabited

/-- One sector of READ_JOURNAL_STATE (R183). -/
structure SectorView where
  state        : SectorState
  valid        : Nat
  lowest       : Option Nat
  highest      : Option Nat
  bad          : Nat
  retireOnFill : Bool
  deriving DecidableEq, Repr, Inhabited

/-- READ_JOURNAL_STATE (R183). -/
structure JournalView where
  condition   : Condition
  cause       : Option FullCause
  writeSector : Option (Fin 32)
  writePos    : Nat
  reserve     : Option Nat
  next        : Nat
  highest     : Nat
  exportMark  : Nat
  requested   : Nat
  program     : Option (Nat × Fin 32 × Nat)
  batch       : BatchState
  list        : List (Fin 32)
  current     : Option (Fin 32)
  suspendCount : Nat
  sectors     : List SectorView
  cursor      : Nat
  programmed  : Nat
  failures    : Nat
  erased      : Nat
  eraseFails  : Nat
  suspends    : Nat
  deriving DecidableEq, Repr, Inhabited

/-- The items READ_BUFFERS gives for each tree (R144). -/
structure BufferTree where
  tree             : TreeId
  downHold         : Nat
  upHold           : Nat
  broadcastBlocks  : Nat
  broadcastPackets : Nat
  uplinkBlocks     : Nat
  uplinkPackets    : Nat
  noHome           : Nat
  broadcastDrops   : Nat
  flushed          : Nat
  uplinkDrops      : Nat
  deriving DecidableEq, Repr, Inhabited

/-- What READ_BUFFERS adds for a line (R144). -/
structure BufferHome where
  blocks    : Nat
  packets   : Nat
  deficit   : Nat
  allowance : Nat
  tailDrops : Nat
  deriving DecidableEq, Repr, Inhabited

/-- What READ_BUFFERS gives for tree 15 alone, or for one tree alone (R144). -/
inductive BufferScope where
  | part (pauseOn held : Bool) (pointer : TreeId) (malformed pauseRequests : Nat)
  | tree (pauseOn held : Bool) (pointer : TreeId) (malformed pauseRequests : Nat) (rotation : Line) (openTurn : Bool)
      (queues : Nat) (home : Option BufferHome)
  deriving DecidableEq, Repr, Inhabited

/-- READ_BUFFERS (R144): the free blocks of each downstream and uplink reserve and of the shared region. -/
structure BuffersView where
  downFree   : List Nat
  upFree     : List Nat
  sharedFree : Nat
  scope      : BufferScope
  trees      : List BufferTree
  deriving DecidableEq, Repr, Inhabited

/-- The counts of one link that IDENTIFY reports (R192). -/
structure LinkCounts where
  busyAnswers  : Nat
  busyDiscards : Nat
  denied       : Nat
  deriving DecidableEq, Repr, Inhabited

/-- IDENTIFY (R192). The vendor, the part name, the revision and the constants are fixed and are added when the reply is laid
out (Machine/Layout.lean). -/
structure IdentifyView where
  frame      : Nat
  seconds    : Nat
  link       : Link
  level      : Nat
  controller : LinkCounts
  craft      : LinkCounts
  discarded  : Nat
  deriving DecidableEq, Repr, Inhabited

/-- The values a reply carries after its code, by the rule of each request. -/
inductive Values where
  | none
  | identify (v : IdentifyView)
  | clock (c : Option Clock) (band : Nat) (lastSecond : Option Nat)
  | permissions (entries : List (ReqKind × Bool × Bool))
  | tree (v : TreeView)
  | count (n : Nat)
  | directory (entries : List (Nat × DirEntry)) (cursor : Nat)
  | home (v : HomeView)
  | service (v : ServiceView)
  | search (v : SearchView)
  | tariff (schedule : List ChangePoint) (band : Nat) (c : Option Clock)
  | closes (closed merged : Nat)
  | usage (v : UsageView)
  | usageSummary (v : UsageSummary)
  | journal (records : List (Nat × Record)) (cursor : Nat)
  | seek (cursor : Nat) (stands : Bool)
  | mark (requested : Nat)
  | journalState (v : JournalView)
  | buffers (v : BuffersView)
  deriving DecidableEq, Repr, Inhabited

/-- A reply (R187): the kind byte, tag and tree field of its request, its code, for CLAMPED the position of the first clamped
field, and its values. `own` marks the reply of the request in hand (R186); a BUSY reply is not. -/
structure Reply where
  kind   : Byte
  tag    : Byte
  tree   : Nat
  code   : Code
  field  : Option Nat
  values : Values
  own    : Bool
  deriving DecidableEq, Repr, Inhabited

/-- What a transmit side is sending (R186). -/
inductive TxItem where
  | reply (r : Reply)
  | notice (n : Notice)
  deriving DecidableEq, Repr, Inhabited

/-- What each link holds: the kind byte of the request in hand, the reply list, the frame or line being sent, the three counts
of R192, the directory read cursor (R38) and the journal read cursor (R166). -/
structure LinkState where
  inHand        : Option Byte
  replies       : List Reply
  sending       : Option TxItem
  busyAnswers   : Nat
  busyDiscards  : Nat
  denied        : Nat
  dirCursor     : Nat
  journalCursor : Nat
  deriving DecidableEq, Repr, Inhabited

/-- The management links (R184 to R191). `frameRx`: none while the controller-link receiver hunts, else the bytes of the frame
after its marker; `lineRx`: the bytes of the craft line so far; `tookReply`: the arbiter's last source was the reply list;
`allowed`: the kinds level 1 may use, in the order of their codes; `notices`: the notice set in order of first occurrence. -/
structure Links where
  controller : LinkState
  craft      : LinkState
  frameRx    : Option (List Byte)
  discarded  : Nat
  lineRx     : List Byte
  tookReply  : Bool
  allowed    : List ReqKind
  notices    : List Notice
  deriving DecidableEq, Repr, Inhabited

/-- The timebase (R1, R32): the 32-bit frame number, how often it has wrapped since the last part reset (the model's own, log
entry 4), the frame boundaries since the last second, the frame numbers of second events that have fallen and not been taken
yet, the seconds counted, and the frame number of the last second event taken. -/
structure Timebase where
  frame      : Nat
  wraps      : Nat
  boundaries : Nat
  secondsDue : List Nat
  seconds    : Nat
  lastSecond : Option Nat
  deriving DecidableEq, Repr, Inhabited

/-- The state of the BLT4128. `pending` is the queue of the commands that are waiting, first in, first out. `inReset`: the part
is held in reset (R196). `resetDue`: the reply of a RESTART_PART has been sent (R193). `freeCount`: the model's own
count of free values drawn. `directory` lists the occupied entry positions 0..1,023, strictly rising. -/
structure State where
  pending   : List Instr
  inReset   : Bool
  resetDue  : Bool
  freeCount : Nat
  time      : Timebase
  trees     : Vector TreeState 4
  directory : List (Nat × DirEntry)
  trunk     : Trunk
  meter     : Meter
  journal   : Journal
  links     : Links
  deriving DecidableEq, Repr

/-- No command of this part stops it: every request is answered or discarded, and an event whose premises do not hold is
discarded (log entry 5). No meaning raises a fault, so there is no constructor. -/
inductive Fault where
  deriving DecidableEq, Repr

/-- Reasons a step is refused. -/
inductive Refusal where
  /-- Raised by `exec` alone, for a command that has no meaning yet; safe, since nothing is claimed of it. No arm raises it. -/
  | notModelled (mnemonic : String)
  deriving DecidableEq, Repr

/-! ## Values after reset -/

/-- The settings of a tree after a part reset (R195, R40, R70, R72, R105, R111, R160). -/
def Settings.reset : Settings :=
  { mode := .listed, discovery := true, di := 64, hold := 120, reach := 40, ert := 28000, overhead := 16,
    statusInterval := 8, rise := 8, fall := 2, autoSearch := true, span := 16,
    service := { cr := 0, pr := 3125, ba := 0, tr := 312, w := 1, dw := 1 }, quota := 0, warn := 7 }

/-- The line-message queue after a part reset and after a tree restart holds one DISMISS_ALL (R10). -/
def Framer.reset : Framer := { urgent := [.dismissAll], ordinary := [], sent := none }

/-- The enrolment engine after a part reset and after a tree restart (R40). -/
def Engine.reset : Engine :=
  { counter := 0, window := none, refusedCall := none, contexts := Vector.replicate 4 none, opened := 0, skipped := 0,
    taken := 0, collisions := 0, deferred := 0, dismissHeld := [], driftHeld := [] }

/-- The planner after a part reset and after a tree restart (R71). The rule gives the summary's empty plan no frame number; the model shows 0 (log
entry 57). -/
def Planner.reset : Planner :=
  { rotation := 0, hold := none, quiet := none, remainder := none, rangingList := [], verifyList := [], summary := {} }

/-- The burst receiver after a part reset (R92). -/
def Receiver.reset : Receiver :=
  { lists := [], arrived := 0, missed := 0, bad := 0, overruns := 0, stale := 0, darkFrames := 0, muteWaits := [],
    carryRun := false, lastEnded := none }

/-- The light watch after a part reset, its period sequence beginning at receive frame `first` (R105). No period has ended; the
rules give no first frame number of the last one then, and the model holds 0 (log entry 51). -/
def Watch.reset (first : Nat) : Watch :=
  { rogue := .clear, first := first, current := {}, last := {}, lastFirst := 0, periodDue := none, endedFirst := false }

/-- The isolation search after a part reset and after a tree restart (R111). -/
def Search.reset : Search :=
  { running := false, snapshot := [], stack := [], test := none, steps := 0, restarts := 0, quarantined := 0,
    release := [], pending := [], last := none }

/-- The traffic buffer of a tree after a part reset (R131, R138, R144). -/
def TreeTraffic.reset : TreeTraffic :=
  { broadcast := [], uplink := [], rotation := 0, openTurn := false, noHome := 0, broadcastDrops := 0, flushed := 0,
    uplinkDrops := 0 }

/-- One tree after a part reset. -/
def TreeState.reset : TreeState :=
  { started := false, lastTry := none, settings := .reset, framer := .reset, slots := Vector.replicate 128 .free,
    engine := .reset, planner := .reset, receiver := .reset, watch := .reset 0, search := .reset, traffic := .reset }

/-- The trunk port after a part reset (R136, R142, R143, R144). -/
def Trunk.reset : Trunk :=
  { pauseOn := false, lastPause := none, sending := none, pointer := 0, held := none, malformed := 0, pauseRequests := 0 }

/-- The usage meter after a part reset (R149, R150, R156, R158). -/
def Meter.reset : Meter :=
  { clock := none, schedule := [], queue := [], mark := none, headMark := none, headHeld := false, due := [],
    intervalCloses := 0, mergedCloses := 0, dueCloses := 0 }

/-- A sector of a new journal. -/
def Sector.reset : Sector := { state := .erased, bad := 0, retireOnFill := false, marker := false }

/-- The volatile state of the journal when a part reset ends (R166), over the array and the sectors given. What R166 leaves to
the end of the scan stands at the values of log entry 6. -/
def Journal.afterReset (sectors : Vector Sector 32) (array : List (Nat × Cell)) : Journal :=
  { condition := .scanning, cause := none, writeSector := none, writePos := 0, next := 1, highest := 0, exportMark := 0,
    requested := 0, program := none, late := [], batch := { state := .none, list := [], todo := [], current := none, suspends := 0 },
    programmed := 0, failures := 0, erased := 0, eraseFails := 0, suspends := 0, sectors := sectors, array := array }

/-- A link after a part reset (R38, R186, R192, R193). -/
def LinkState.reset : LinkState :=
  { inHand := none, replies := [], sending := none, busyAnswers := 0, busyDiscards := 0, denied := 0, dirCursor := 0,
    journalCursor := 1 }

/-- The kinds level 1 may use after a part reset (R189). -/
def Links.defaultAllowed : List ReqKind :=
  [.identify, .readClock, .readPermission, .readTree, .readDirectory, .readHome, .setService, .readService, .readSearch,
   .readTariff, .readUsage, .readJournal, .seekJournal, .readJournalState, .readBuffers]

/-- The links after a part reset (R186, R189, R190, R192, R193). -/
def Links.reset : Links :=
  { controller := .reset, craft := .reset, frameRx := none, discarded := 0, lineRx := [], tookReply := false,
    allowed := Links.defaultAllowed, notices := [] }

/-- The timebase at the start of frame 0 (R1). -/
def Timebase.reset : Timebase := { frame := 0, wraps := 0, boundaries := 0, secondsDue := [], seconds := 0, lastSecond := none }

/-- Every volatile item at its value after a part reset, over what survives: the waiting commands, the model's count of free
values, and the journal's non-volatile storage. -/
def State.afterReset (pending : List Instr) (freeCount : Nat) (sectors : Vector Sector 32) (array : List (Nat × Cell)) :
    State :=
  { pending := pending, inReset := false, resetDue := false, freeCount := freeCount, time := .reset,
    trees := Vector.replicate 4 .reset, directory := [], trunk := .reset, meter := .reset,
    journal := .afterReset sectors array, links := .reset }

/-- The BLT4128 right after reset, with a journal that has never been written (log entry 6) and no command waiting. -/
def State.reset : State := State.afterReset [] 0 (Vector.replicate 32 .reset) []

end Sys2Proof.Machine
end

