-- ==== Sys2Proof/Machine/Ops.lean ====
section
/-! DEFINITION. The named operations the blocks share: counts and clamps, access to trees, slots and contexts, stores of
sparse data, the line-message queue (R7, R9), and the notice set with the transmit side (R186, R190, R191). -/

namespace Sys2Proof.Machine

/-! ## Counts and clamps -/

/-- A count that stays at its top once it reaches it (R40, R92, R144, R156, R166, R192). -/
def bump (n : Nat) : Nat := min (n + 1) Config.countMax

/-- Brings a setting to the nearest end of its range (R188). -/
def clampTo (lo hi v : Nat) : Nat := max lo (min v hi)

/-- Division rounded up (00_scope.md, Arithmetic). -/
def ceilDiv (n d : Nat) : Nat := (n + d - 1) / d

/-! ## Stores: sparse data by key, in one canonical form (keys strictly rising) -/

/-- What stands at key `k`. -/
def storeGet {α : Type} (m : List (Nat × α)) (k : Nat) : Option α :=
  match m with
  | [] => none
  | (j, v) :: rest => if j = k then some v else storeGet rest k

/-- The store without key `k`. -/
def storeDel {α : Type} (m : List (Nat × α)) (k : Nat) : List (Nat × α) :=
  match m with
  | [] => []
  | (j, v) :: rest => if j = k then storeDel rest k else (j, v) :: storeDel rest k

/-- Puts a key that is not held into its place. -/
def storeInsert {α : Type} (m : List (Nat × α)) (k : Nat) (v : α) : List (Nat × α) :=
  match m with
  | [] => [(k, v)]
  | (j, w) :: rest => if k < j then (k, v) :: (j, w) :: rest else (j, w) :: storeInsert rest k v

/-- The store with `v` at key `k`. -/
def storePut {α : Type} (m : List (Nat × α)) (k : Nat) (v : α) : List (Nat × α) :=
  storeInsert (storeDel m k) k v

/-- The canonical form of a store: keys strictly rising. -/
def storeWf {α : Type} (m : List (Nat × α)) : Bool :=
  match m with
  | [] => true
  | (k, _) :: rest => rest.all (fun p => k < p.1) && storeWf rest

/-! ## Trees, slots and contexts -/

/-- The state of tree `t`. -/
def State.tree (s : State) (t : TreeId) : TreeState := s.trees[t]

/-- `s` with tree `t` changed by `f`. -/
def State.modTree (s : State) (t : TreeId) (f : TreeState → TreeState) : State :=
  { s with trees := s.trees.set t (f (s.tree t)) }

/-- The home slot at line `l`. -/
def TreeState.slot (T : TreeState) (l : Line) : Slot := T.slots[l]

/-- The tree with the slot at line `l` changed by `f`. -/
def TreeState.modSlot (T : TreeState) (l : Line) (f : Slot → Slot) : TreeState :=
  { T with slots := T.slots.set l (f (T.slot l)) }

/-- The tree with every slot changed by `f`. -/
def TreeState.mapSlots (T : TreeState) (f : Line → Slot → Slot) : TreeState :=
  { T with slots := Vector.mk (List.zipWith f allLines T.slots.toList).toArray (by simp [allLines]) }

/-- The home slot of tree `t` at line `l`. -/
def State.slot (s : State) (t : TreeId) (l : Line) : Slot := (s.tree t).slot l

/-- `s` with one home slot changed by `f`. -/
def State.modSlot (s : State) (t : TreeId) (l : Line) (f : Slot → Slot) : State :=
  s.modTree t (fun T => T.modSlot l f)

/-- `s` with the enrolment engine of tree `t` changed by `f`. -/
def State.modEngine (s : State) (t : TreeId) (f : Engine → Engine) : State :=
  s.modTree t (fun T => { T with engine := f T.engine })

/-- `s` with the planner of tree `t` changed by `f`. -/
def State.modPlanner (s : State) (t : TreeId) (f : Planner → Planner) : State :=
  s.modTree t (fun T => { T with planner := f T.planner })

/-- `s` with the burst receiver of tree `t` changed by `f`. -/
def State.modReceiver (s : State) (t : TreeId) (f : Receiver → Receiver) : State :=
  s.modTree t (fun T => { T with receiver := f T.receiver })

/-- `s` with the light watch of tree `t` changed by `f`. -/
def State.modWatch (s : State) (t : TreeId) (f : Watch → Watch) : State :=
  s.modTree t (fun T => { T with watch := f T.watch })

/-- `s` with the isolation search of tree `t` changed by `f`. -/
def State.modSearch (s : State) (t : TreeId) (f : Search → Search) : State :=
  s.modTree t (fun T => { T with search := f T.search })

/-- `s` with the traffic queues and counts of tree `t` changed by `f`. -/
def State.modTraffic (s : State) (t : TreeId) (f : TreeTraffic → TreeTraffic) : State :=
  s.modTree t (fun T => { T with traffic := f T.traffic })

/-- The context positions of a tree, ascending (R41). -/
def allContexts : List (Fin 4) := List.finRange 4

/-- The lowest free context position, if any (R41). -/
def Engine.freeContext (e : Engine) : Option (Fin 4) :=
  allContexts.find? (fun i => (e.contexts[i]).isNone)

/-- The busy contexts in position order. -/
def Engine.busy (e : Engine) : List Context :=
  allContexts.filterMap (fun i => e.contexts[i])

/-- The position of the context bound to line `l`, if any. -/
def Engine.positionOf (e : Engine) (l : Line) : Option (Fin 4) :=
  allContexts.find? (fun i => match e.contexts[i] with | some c => c.line = l | none => false)

/-- The context bound to line `l`, if any. -/
def Engine.contextOf (e : Engine) (l : Line) : Option Context :=
  match e.positionOf l with
  | some i => e.contexts[i]
  | none => none

/-- The engine with context position `i` holding `c`. -/
def Engine.setContext (e : Engine) (i : Fin 4) (c : Option Context) : Engine :=
  { e with contexts := e.contexts.set i c }

/-- The engine with the context of line `l` changed by `f`; unchanged when there is none. -/
def Engine.modContext (e : Engine) (l : Line) (f : Context → Context) : Engine :=
  match e.positionOf l with
  | some i => e.setContext i ((e.contexts[i]).map f)
  | none => e

/-- The engine with every context of line `l` released (R41). -/
def Engine.releaseContext (e : Engine) (l : Line) : Engine :=
  match e.positionOf l with
  | some i => e.setContext i none
  | none => e

/-- A line set or list without line `l`. -/
def dropLine (ls : List Line) (l : Line) : List Line := ls.filter (· ≠ l)

/-- The planner without line `l` on its ranging and verify lists: its context has been released. R120 says so of a quarantine and R71 of a restart;
that a line whose slot is freed, goes LOST or becomes ACTIVE leaves the lists at once too, and not when the planner next takes them (R78), is the
model's (log entry 79). -/
def Planner.dropLine (p : Planner) (l : Line) : Planner :=
  { p with rangingList := Machine.dropLine p.rangingList l, verifyList := Machine.dropLine p.verifyList l }

/-- A list of lines with `l` at its end, held once (R71: no line stands twice in one list). -/
def joinLine (ls : List Line) (l : Line) : List Line := if l ∈ ls then ls else ls ++ [l]

/-- A set of lines, kept ascending, with `l` in it. -/
def insertLine (ls : List Line) (l : Line) : List Line := allLines.filter (fun x => x = l ∨ x ∈ ls)

/-- The count of frames since the last part reset (log entry 4). -/
def Timebase.count (x : Timebase) : Nat := Config.frameNumbers * x.wraps + x.frame

/-- The frame number of the frame of a count: after 4,294,967,295 it wraps to 0 (R1). -/
def frameNumber (count : Nat) : Nat := count % Config.frameNumbers

/-- The timebase one frame on (R1). -/
def Timebase.advance (x : Timebase) : Timebase :=
  { x with frame := frameNumber (x.frame + 1), wraps := x.wraps + (x.frame + 1) / Config.frameNumbers }

/-- The count of the last frame whose frame start on tree `t` has been taken, none before frame 0 (R1, R115). -/
def State.lastStarted (s : State) (t : TreeId) : Option Nat :=
  if (s.tree t).started then some s.time.count
  else if s.time.count = 0 then none else some (s.time.count - 1)

/-- The count of the frame whose frame start comes next on tree `t`. -/
def State.nextFrame (s : State) (t : TreeId) : Nat :=
  if (s.tree t).started then s.time.count + 1 else s.time.count

/-! ## The line-message queue (R7, R9) -/

/-- The class of a message (Table 1-2): MUTE, UNMUTE, DISMISS and DISMISS_ALL are urgent. -/
def LineMsg.urgent : LineMsg → Bool
  | .mute _ _ => true
  | .unmute _ _ => true
  | .dismiss _ => true
  | .dismissAll => true
  | .call _ _ _ => false
  | .assign _ _ => false
  | .delay _ _ _ => false

/-- The number of entries held, both classes together (R7). -/
def Framer.count (f : Framer) : Nat := f.urgent.length + f.ordinary.length

/-- The queue with `m` at the end of its class (R7). -/
def Framer.add (f : Framer) (m : LineMsg) : Framer :=
  if m.urgent then { f with urgent := f.urgent ++ [m] } else { f with ordinary := f.ordinary ++ [m] }

/-- The queue with the entries that fail `keep` removed unsent. -/
def Framer.keep (f : Framer) (keep : LineMsg → Bool) : Framer :=
  { f with urgent := f.urgent.filter keep, ordinary := f.ordinary.filter keep }

/-- Whether R9 withdraws a message when line `l` becomes FREE: ASSIGN (its body names the line), DELAY, MUTE and UNMUTE. -/
def LineMsg.withdrawn (l : Line) : LineMsg → Bool
  | .assign _ k => k = l
  | .delay k _ _ => k = l
  | .mute k _ => k = l
  | .unmute k _ => k = l
  | .call _ _ _ => false
  | .dismiss _ => false
  | .dismissAll => false

/-- Whether a message is an ASSIGN or a DELAY addressed to line `l` (R50). -/
def LineMsg.enrols (l : Line) : LineMsg → Bool
  | .assign _ k => k = l
  | .delay k _ _ => k = l
  | _ => false

/-- The use of a DELAY whose context has been released. A drift DELAY is no context's. -/
def DelayUse.disowned : DelayUse → DelayUse
  | .provisional => .abandoned
  | .final => .abandoned
  | .drift => .drift
  | .abandoned => .abandoned

/-- A message once the context of line `l` has been released: an enrolment DELAY of the line carries out no context's step any more (R52, R54). -/
def LineMsg.disowned (l : Line) : LineMsg → LineMsg
  | .delay k v use => .delay k v (if k = l then use.disowned else use)
  | m => m

/-- The queue once the context of line `l` has been released while its slot stays: its messages are still sent, but no later context of the line is
told that its own were. -/
def Framer.disown (f : Framer) (l : Line) : Framer := { f with ordinary := f.ordinary.map (LineMsg.disowned l) }

/-- Whether a message is a CALL. -/
def LineMsg.isCall : LineMsg → Bool
  | .call _ _ _ => true
  | _ => false

/-- Offers a message to the queue of tree `t`: added while fewer than 64 entries are held, else refused with the queue unchanged
(R7). -/
def State.offer (s : State) (t : TreeId) (m : LineMsg) : State × Bool :=
  if (s.tree t).framer.count < Config.messageCap then
    (s.modTree t (fun T => { T with framer := T.framer.add m }), true)
  else (s, false)

/-- Removes from the queue of tree `t` the entries for which `p` holds. -/
def State.withdraw (s : State) (t : TreeId) (p : LineMsg → Bool) : State :=
  s.modTree t (fun T => { T with framer := T.framer.keep (fun m => !p m) })

/-! ## The transmit side and the notice set (R186, R190, R191) -/

/-- The craft link takes the head of its reply list when it is free (R186). -/
def Links.pumpCraft (k : Links) : Links :=
  match k.craft.sending, k.craft.replies with
  | none, r :: rest => { k with craft := { k.craft with sending := some (.reply r), replies := rest } }
  | _, _ => k

/-- The controller link, when free, takes a reply or a notice: the one that waits, or, when both wait, the source it did not take
last time (R186). While the journal is SCANNING it takes no notice (R191). -/
def Links.pumpController (scanning : Bool) (k : Links) : Links :=
  match k.controller.sending with
  | some _ => k
  | none =>
    match k.controller.replies, (if scanning then [] else k.notices) with
    | [], [] => k
    | r :: rest, [] =>
      { k with controller := { k.controller with sending := some (.reply r), replies := rest }, tookReply := true }
    | [], n :: rest =>
      { k with controller := { k.controller with sending := some (.notice n) }, notices := rest, tookReply := false }
    | r :: rs, n :: ns =>
      if k.tookReply then
        { k with controller := { k.controller with sending := some (.notice n) }, notices := ns, tookReply := false }
      else
        { k with controller := { k.controller with sending := some (.reply r), replies := rs }, tookReply := true }

/-- Both transmit sides take what they may (R186). -/
def State.pump (s : State) : State :=
  { s with links := (s.links.pumpController (s.journal.condition = .scanning)).pumpCraft }

/-- Whether an entry has the key given (R190). -/
def Notice.hasKey (n : Notice) (kind : NoticeKind) (tree : Option TreeId) (line : KeyLine) : Bool :=
  n.kind = kind && n.tree = tree && n.line = line

/-- Steps 1 and 2 of R190: an entry of the key counts the repeat up to 65,535, else a new entry stands at the end. -/
def foldNotice (ns : List Notice) (kind : NoticeKind) (tree : Option TreeId) (line : KeyLine) (d : Details) :
    List Notice :=
  if ns.any (fun n => n.hasKey kind tree line) then
    ns.map (fun n => if n.hasKey kind tree line then { n with count := min (n.count + 1) 65535 } else n)
  else ns ++ [{ kind := kind, tree := tree, line := line, count := 1, details := d }]

/-- The notice set after a notice is raised (R190). -/
def addNotice (ns : List Notice) (kind : NoticeKind) (tree : Option TreeId) (line : KeyLine) (d : Details) :
    List Notice :=
  match line with
  | .line l =>
    if ns.any (fun n => n.hasKey kind tree (.line l)) || decide (ns.length < Config.noticeSingles) then
      foldNotice ns kind tree (.line l) d
    else foldNotice ns kind tree .all d
  | k => foldNotice ns kind tree k d

/-- A block raises a notice (R190); it goes out at once when the controller link is free and nothing else waits (R191). -/
def State.raise (s : State) (kind : NoticeKind) (tree : Option TreeId) (line : KeyLine) (d : Details) : State :=
  ({ s with links := { s.links with notices := addNotice s.links.notices kind tree line d } }).pump

/-- A notice for one home. -/
def State.raiseHome (s : State) (kind : NoticeKind) (t : TreeId) (l : Line) (d : Details) : State :=
  s.raise kind (some t) (.line l) d

/-- A notice for a tree. -/
def State.raiseTree (s : State) (kind : NoticeKind) (t : TreeId) (d : Details) : State :=
  s.raise kind (some t) .none d

/-- A notice for the part. -/
def State.raisePart (s : State) (kind : NoticeKind) (d : Details) : State :=
  s.raise kind none .none d

/-- While the part is held in reset it takes no command but those of the reset itself (R196). -/
def State.live (s : State) (f : State → State) : Host.Outcome State Fault Refusal :=
  .next (if s.inReset then s else f s)

end Sys2Proof.Machine
end

