-- ==== Sys2Proof/Machine/Operands.lean ====
section
/-! DEFINITION. The operands of requests: which tree, trees or line an identifier names, and the clamping of settings (R187,
R188). -/

namespace Sys2Proof.Machine

/-- The one tree a tree field names, 0..3; any other value is out of range (R188). -/
def oneTree (n : Nat) : Option TreeId := if h : n < 4 then some ⟨n, h⟩ else none

/-- The trees a tree field names where 15 stands for all four (R189, catalogue); any other value is out of range. -/
def someTrees (n : Nat) : Option (List TreeId) :=
  if n = 15 then some allTrees else (oneTree n).map (fun t => [t])

/-- The line an identifier names, 0..127 (R188). -/
def oneLine (n : Nat) : Option Line := if h : n < 128 then some ⟨n, h⟩ else none

/-- A tree and line of a request, each in its range (R24, R63, R67, R129, R130). -/
def treeAndLine (tree line : Nat) : Option (TreeId × Line) :=
  match oneTree tree, oneLine line with
  | some t, some l => some (t, l)
  | _, _ => none

/-- Whether a value that may be absent lies outside its range, so that clamping changes it (R188). -/
def outOfRange (lo hi : Nat) : Option Nat → Bool
  | some v => decide (v < lo ∨ hi < v)
  | none => false

/-- The value of a field after clamping: the named value brought into its range, or the present value. -/
def clampedOr (lo hi present : Nat) : Option Nat → Nat
  | some v => clampTo lo hi v
  | none => present

/-- The position of the first field marked, in the request's field order (R187). -/
def firstMarked (fields : List (Nat × Bool)) : Option Nat := (fields.find? (fun p => p.2)).map (·.1)

/-- The two quantities of SET_CLOCK clamped, and the first clamped field (R149). -/
def clampClock (day second : Nat) : Clock × Option Nat :=
  ({ day := clampTo 0 65535 day, second := clampTo 0 86399 second },
   firstMarked [(1, outOfRange 0 65535 (some day)), (2, outOfRange 0 86399 (some second))])

/-- A tariff list clamped point by point, and the first clamped field in list order, a point counting as two fields (R150). -/
def clampPoints (n : Nat) : List ChangePoint → List ChangePoint × Option Nat
  | [] => ([], none)
  | p :: rest =>
    let (ps, f) := clampPoints (n + 2) rest
    let own := firstMarked [(n, outOfRange 0 86399 (some p.second)), (n + 1, outOfRange 0 7 (some p.band))]
    ({ second := clampTo 0 86399 p.second, band := clampTo 0 7 p.band } :: ps, own.orElse (fun _ => f))

/-- Whether the seconds of a tariff list are strictly ascending (R150). -/
def ascending : List ChangePoint → Bool
  | [] => true
  | p :: rest => rest.all (fun q => p.second < q.second) && ascending rest

/-- Steps 2 to 4 of R67 on a record `p`: the fields taken are clamped to their ranges, PR and BA against the CR they will
meet, laid over `p`, and PR and BA raised to CR. Also the first field clamped or raised, in the order CR, PR, BA, TR, w,
dw, counted from `first` in the request's field order (R187). -/
def layFields (first : Nat) (f : ServiceChange) (p : ServiceFields) : ServiceFields × Option Nat :=
  let cr := clampedOr 0 62500 p.cr f.cr
  let pr := max cr (clampedOr cr 62500 p.pr f.pr)
  let ba := max cr (clampedOr cr 250000 p.ba f.ba)
  let tr := clampedOr 0 62500 p.tr f.tr
  let w := clampedOr 1 255 p.w f.w
  let dw := clampedOr 1 255 p.dw f.dw
  ({ cr := cr, pr := pr, ba := ba, tr := tr, w := w, dw := dw },
   firstMarked
     [(first, outOfRange 0 62500 f.cr),
      (first + 1, outOfRange cr 62500 f.pr || decide (f.pr.getD p.pr < cr)),
      (first + 2, outOfRange cr 250000 f.ba || decide (f.ba.getD p.ba < cr)),
      (first + 3, outOfRange 0 62500 f.tr),
      (first + 4, outOfRange 1 255 f.w),
      (first + 5, outOfRange 1 255 f.dw)])

/-- Step 5 of R67: every field that differs from its live value, and no other. -/
def stagedOf (result live : ServiceFields) : ServiceChange :=
  { cr := if result.cr = live.cr then none else some result.cr,
    pr := if result.pr = live.pr then none else some result.pr,
    ba := if result.ba = live.ba then none else some result.ba,
    tr := if result.tr = live.tr then none else some result.tr,
    w := if result.w = live.w then none else some result.w,
    dw := if result.dw = live.dw then none else some result.dw }

end Sys2Proof.Machine

namespace Sys2Proof

open Sys2Proof.Machine

/-- The service-record fields that a link may write: on the craft link the protected fields are left unchanged (R67, R70). -/
def ServiceChange.forLink (link : Link) (f : ServiceChange) : ServiceChange :=
  match link with
  | .controller => f
  | .craft => { w := f.w, dw := f.dw }

/-- The number of fields a change names (R67: "the count of fields taken"). -/
def ServiceChange.count (f : ServiceChange) : Nat :=
  ([f.cr, f.pr, f.ba, f.tr, f.w, f.dw].filter Option.isSome).length

/-- The live part with the staged values in place of the live ones where the staged part holds them (R67 step 3). -/
def ServiceChange.over (f : ServiceChange) (live : ServiceFields) : ServiceFields :=
  { cr := f.cr.getD live.cr, pr := f.pr.getD live.pr, ba := f.ba.getD live.ba, tr := f.tr.getD live.tr,
    w := f.w.getD live.w, dw := f.dw.getD live.dw }

/-- The settings of a tree with the fields of SET_TREE clamped and written (R195, R40, R72, R110, R116). -/
def TreeFields.apply (f : TreeFields) (c : Settings) : Settings :=
  { c with
    mode := f.mode.getD c.mode
    discovery := f.discovery.getD c.discovery
    di := clampedOr 16 4000 c.di f.di
    hold := clampedOr 10 3600 c.hold f.hold
    reach := clampedOr 0 40 c.reach f.reach
    ert := clampedOr 3000 30000 c.ert f.ert
    overhead := clampedOr 8 64 c.overhead f.overhead
    statusInterval := clampedOr 1 64 c.statusInterval f.statusInterval
    rise := clampedOr 1 64 c.rise f.rise
    fall := clampedOr 0 63 c.fall f.fall
    autoSearch := f.autoSearch.getD c.autoSearch
    span := clampedOr 4 64 c.span f.span }

/-- The first clamped field of SET_TREE, in the order of the table of R195. -/
def TreeFields.firstClamped (f : TreeFields) : Option Nat :=
  firstMarked
    [(3, outOfRange 16 4000 f.di), (4, outOfRange 10 3600 f.hold), (5, outOfRange 0 40 f.reach),
     (6, outOfRange 3000 30000 f.ert), (7, outOfRange 8 64 f.overhead), (8, outOfRange 1 64 f.statusInterval),
     (9, outOfRange 1 64 f.rise), (10, outOfRange 0 63 f.fall), (12, outOfRange 4 64 f.span)]

end Sys2Proof
end

