-- ==== Sys2Proof/Machine/Requests.lean ====
section
/-! DEFINITION. How a request is received, judged and answered (R184 to R189): the request kinds and their codes, the link
check, the permission check, the reply list and the transmit side. -/

namespace Sys2Proof.Machine

/-- The request kinds in the order of their codes, 01h to 25h (R189, catalogue). -/
def ReqKind.all : List ReqKind :=
  [.identify, .restartPart, .setClock, .readClock, .setPermission, .readPermission, .setTree, .readTree, .restartTree,
   .holdTree, .releaseHold, .setDefaultService, .allowSerial, .disallowSerial, .barSerial, .pinSerial, .readDirectory,
   .readHome, .dismissHome, .setService, .readService, .startSearch, .abortSearch, .readSearch, .releaseHome, .expelHome,
   .setTariff, .readTariff, .setQuota, .resetPeriod, .closeAll, .readUsage, .readJournal, .seekJournal, .exportDone,
   .readJournalState, .readBuffers]

/-- The code of a request kind (R189, catalogue). -/
def ReqKind.code (k : ReqKind) : Nat := ReqKind.all.idxOf k + 1

/-- The kind a code names, if any (R189). -/
def ReqKind.ofCode (n : Nat) : Option ReqKind := if n = 0 then none else ReqKind.all[n - 1]?

/-- The kind byte of a request frame (Table 1-8). -/
def ReqKind.byte (k : ReqKind) : Byte := BitVec.ofNat 8 k.code

/-- The six kinds fixed at level 0 (R189). -/
def ReqKind.fixed (k : ReqKind) : Bool :=
  k ∈ [ReqKind.setPermission, .restartPart, .restartTree, .exportDone, .expelHome, .barSerial]

/-- What an owner answers: a reply code, for CLAMPED the position of the first clamped field, and the reply's values (R187). -/
structure Answer where
  code   : Code
  field  : Option Nat := none
  values : Values := .none
  deriving DecidableEq, Repr, Inhabited

/-- A refusal carries the code alone (R187). -/
def refuse (c : Code) : Answer := { code := c }

/-- DONE with the values given. -/
def doneWith (v : Values) : Answer := { code := .done, values := v }

/-- DONE, or CLAMPED naming the first clamped field, with the values given (R187). -/
def settled (field : Option Nat) (v : Values) : Answer :=
  match field with
  | none => doneWith v
  | some p => { code := .clamped, field := some p, values := v }

/-- The state of a link. -/
def State.link (s : State) : Link → LinkState
  | .controller => s.links.controller
  | .craft => s.links.craft

/-- `s` with the state of a link changed by `f`. -/
def State.modLink (s : State) (k : Link) (f : LinkState → LinkState) : State :=
  match k with
  | .controller => { s with links := { s.links with controller := f s.links.controller } }
  | .craft => { s with links := { s.links with craft := f s.links.craft } }

/-- A link's receiver stands at the start of a new frame or line (R184, R185). -/
def State.hunt (s : State) (k : Link) : State :=
  match k with
  | .controller => { s with links := { s.links with frameRx := none } }
  | .craft => { s with links := { s.links with lineRx := [] } }

/-- Places a reply on the list of the link that carried the request and lets the transmit side take what it may (R186, R187). -/
def State.reply (s : State) (h : Head) (kind : Byte) (a : Answer) (own : Bool) : State :=
  (s.modLink h.link (fun k => { k with replies := k.replies ++
    [{ kind := kind, tag := h.tag, tree := h.tree, code := a.code, field := a.field, values := a.values, own := own }] })).pump

/-- A request arrives (R186, R187 step 1). While the reply list is full it is discarded without a reply; while another request is
in hand it is answered BUSY; else it becomes in hand, is judged and taken whole by `body`, and its reply is made in the same
event. -/
def State.receive (s : State) (h : Head) (kind : Byte) (body : State → State × Answer) : State :=
  let s := s.hunt h.link
  if 3 ≤ (s.link h.link).replies.length then
    s.modLink h.link (fun k => { k with busyDiscards := bump k.busyDiscards })
  else if (s.link h.link).inHand.isSome then
    (s.modLink h.link (fun k => { k with busyAnswers := bump k.busyAnswers })).reply h kind (refuse .busy) false
  else
    let (s', a) := body (s.modLink h.link (fun k => { k with inHand := some kind }))
    s'.reply h kind a true

/-- Whether the permission map lets the link use a kind: the controller link every kind, the craft link the kinds allowed at level 1
(R189). -/
def State.permitted (s : State) (link : Link) (k : ReqKind) : Bool :=
  match link with
  | .controller => true
  | .craft => k ∈ s.links.allowed

/-- The permission check (R187 step 3, R189), and then the owner. -/
def judgeRequest (h : Head) (k : ReqKind) (owner : State → State × Answer) (s : State) : State × Answer :=
  if s.permitted h.link k then owner s
  else (s.modLink h.link (fun k => { k with denied := bump k.denied }), refuse .denied)

/-- A readable request of kind `k` arrives and is taken by its owner (R186, R187). -/
def State.request (s : State) (h : Head) (k : ReqKind) (owner : State → State × Answer) : State :=
  s.receive h k.byte (judgeRequest h k owner)

/-- A request that fails the form check is answered BAD_FORM (R187 step 2). -/
def State.unreadable (s : State) (h : Head) (kind : Byte) : State :=
  s.receive h kind (fun s => (s, refuse .badForm))

end Sys2Proof.Machine
end

