-- ==== Sys2Proof/Decode.lean ====
section
/-! DEFINITION. Reading requests: the body of a binary frame (R184, R188), a line of the craft link (R185), and the words of the opcode table, which
gives no row any bits. Every reading is total; what cannot be read is none, and the link answers it BAD_FORM (R187). -/

namespace Sys2Proof

open Sys2Proof.Machine

/-! ## The words of the opcode table -/

/-- The command a word of the opcode table spells. The table gives no row any bits, so no word spells a command. -/
def decodeTableWord (_nbits _w : Nat) : Option Instr := none

/-! ## Binary bodies (R188) -/

/-- A reader of a binary body: the value read and the bytes left, or none where the bytes cannot be read. -/
abbrev Reader (α : Type) := List Byte → Option (α × List Byte)

/-- Reads a number of `n` bytes, most significant first. -/
def readNum (n : Nat) : Reader Nat := fun bs => if n ≤ bs.length then some (natOf (bs.take n), bs.drop n) else none

/-- Reads a yes-or-no field: one byte, 0 or 1. -/
def readYesNo : Reader Bool := fun bs =>
  (readNum 1 bs).bind (fun r => if r.1 = 0 then some (false, r.2) else if r.1 = 1 then some (true, r.2) else none)

/-- Reads a mode: 0 for LISTED, 1 for OPEN. -/
def readMode : Reader Mode := fun bs => (readYesNo bs).map (fun r => (if r.1 then .opened else .listed, r.2))

/-- Reads a serial of 6 bytes. -/
def readSerial : Reader Serial := fun bs => (readNum 6 bs).map (fun r => (BitVec.ofNat 48 r.1, r.2))

/-- Reads an optional field: a presence byte, and the field when it is 1. -/
def readOptional {α : Type} (p : Reader α) : Reader (Option α) := fun bs =>
  (readYesNo bs).bind (fun r => if r.1 then (p r.2).map (fun q => (some q.1, q.2)) else some (none, r.2))

/-- Reads `n` items. -/
def readItems {α : Type} (p : Reader α) : Nat → Reader (List α)
  | 0, bs => some ([], bs)
  | n + 1, bs => (p bs).bind (fun r => (readItems p n r.2).map (fun q => (r.1 :: q.1, q.2)))

/-- Reads a list: a count byte, and its items. -/
def readList {α : Type} (p : Reader α) : Reader (List α) := fun bs => (readNum 1 bs).bind (fun r => readItems p r.1 r.2)

/-- Reads a change point: a second of 3 bytes and a band of 1. -/
def readPoint : Reader ChangePoint := fun bs =>
  (readNum 3 bs).bind (fun r => (readNum 1 r.2).map (fun q => ({ second := r.1, band := q.1 }, q.2)))

/-- Reads the six optional service fields (Table 4-1, R67, R70). -/
def readService : Reader ServiceChange := fun bs => do
  let (cr, bs) ← readOptional (readNum 2) bs
  let (pr, bs) ← readOptional (readNum 2) bs
  let (ba, bs) ← readOptional (readNum 3) bs
  let (tr, bs) ← readOptional (readNum 2) bs
  let (w, bs) ← readOptional (readNum 1) bs
  let (dw, bs) ← readOptional (readNum 1) bs
  some ({ cr := cr, pr := pr, ba := ba, tr := tr, w := w, dw := dw }, bs)

/-- Reads the twelve optional settings of SET_TREE (R195). -/
def readTreeFields : Reader TreeFields := fun bs => do
  let (mode, bs) ← readOptional readMode bs
  let (discovery, bs) ← readOptional readYesNo bs
  let (di, bs) ← readOptional (readNum 2) bs
  let (hold, bs) ← readOptional (readNum 2) bs
  let (reach, bs) ← readOptional (readNum 1) bs
  let (ert, bs) ← readOptional (readNum 2) bs
  let (overhead, bs) ← readOptional (readNum 1) bs
  let (status, bs) ← readOptional (readNum 1) bs
  let (rise, bs) ← readOptional (readNum 1) bs
  let (fall, bs) ← readOptional (readNum 1) bs
  let (auto, bs) ← readOptional readYesNo bs
  let (span, bs) ← readOptional (readNum 1) bs
  some ({ mode := mode, discovery := discovery, di := di, hold := hold, reach := reach, ert := ert, overhead := overhead,
          statusInterval := status, rise := rise, fall := fall, autoSearch := auto, span := span }, bs)

/-- The value of a reader that takes the whole body; a body of another length cannot be read (R188). -/
def wholly {α : Type} (p : Reader α) (bs : List Byte) : Option α :=
  match p bs with
  | some (a, []) => some a
  | _ => none

/-- A body of a kind without arguments. -/
def noBody {α : Type} (a : α) (bs : List Byte) : Option α := if bs = [] then some a else none

/-- The request of kind `k` that a binary body makes, or none where the body cannot be read (R188, R189 catalogue). -/
def decodeBody (h : Head) (k : ReqKind) (bs : List Byte) : Option Instr :=
  match k with
  | .identify => noBody (.identify h) bs
  | .restartPart => noBody (.restartPart h) bs
  | .setClock =>
    wholly (fun bs => (readNum 2 bs).bind (fun d => (readNum 3 d.2).map (fun x => (.setClock h d.1 x.1, x.2)))) bs
  | .readClock => noBody (.readClock h) bs
  | .setPermission =>
    wholly (fun bs => (readNum 1 bs).bind (fun d => (readYesNo d.2).map (fun x => (.setPermission h d.1 x.1, x.2)))) bs
  | .readPermission => noBody (.readPermission h) bs
  | .setTree => (wholly readTreeFields bs).map (.setTree h)
  | .readTree => noBody (.readTree h) bs
  | .restartTree => noBody (.restartTree h) bs
  | .holdTree => noBody (.holdTree h) bs
  | .releaseHold => noBody (.releaseHold h) bs
  | .setDefaultService => (wholly readService bs).map (.setDefaultService h)
  | .allowSerial => (wholly readSerial bs).map (.allowSerial h)
  | .disallowSerial => (wholly readSerial bs).map (.disallowSerial h)
  | .barSerial => (wholly readSerial bs).map (.barSerial h)
  | .pinSerial =>
    wholly (fun bs => (readSerial bs).bind (fun d => (readYesNo d.2).map (fun x => (.pinSerial h d.1 x.1, x.2)))) bs
  | .readDirectory => (wholly (readOptional (readNum 2)) bs).map (.readDirectory h)
  | .readHome => (wholly (readNum 1) bs).map (.readHome h)
  | .dismissHome => (wholly (readNum 1) bs).map (.dismissHome h)
  | .setService =>
    wholly (fun bs => (readNum 1 bs).bind (fun d => (readService d.2).map (fun x => (.setService h d.1 x.1, x.2)))) bs
  | .readService => (wholly (readNum 1) bs).map (.readService h)
  | .startSearch => noBody (.startSearch h) bs
  | .abortSearch => noBody (.abortSearch h) bs
  | .readSearch => noBody (.readSearch h) bs
  | .releaseHome => (wholly (readNum 1) bs).map (.releaseHome h)
  | .expelHome => (wholly (readNum 1) bs).map (.expelHome h)
  | .setTariff => (wholly (readList readPoint) bs).map (.setTariff h)
  | .readTariff => noBody (.readTariff h) bs
  | .setQuota =>
    wholly (fun bs => (readOptional (readNum 1) bs).bind (fun l => (readOptional (readNum 6) l.2).bind (fun q =>
      (readOptional (readNum 1) q.2).map (fun w => (.setQuota h l.1 q.1 w.1, w.2))))) bs
  | .resetPeriod => (wholly (readOptional (readNum 1)) bs).map (.resetPeriod h)
  | .closeAll => noBody (.closeAll h) bs
  | .readUsage => (wholly (readOptional (readNum 1)) bs).map (.readUsage h)
  | .readJournal => noBody (.readJournal h) bs
  | .seekJournal => (wholly (readNum 4) bs).map (.seekJournal h)
  | .exportDone => (wholly (readNum 4) bs).map (.exportDone h)
  | .readJournalState => noBody (.readJournalState h) bs
  | .readBuffers => (wholly (readOptional (readNum 1)) bs).map (.readBuffers h)

/-- The request a good frame makes, from its kind byte, tag, tree byte and body (R184); an unknown kind or an unreadable body makes an
UNKNOWN_REQUEST (R187). -/
def decodeFrame (kind tag tree : Byte) (body : List Byte) : Instr :=
  let h : Head := { link := .controller, tag := tag, tree := tree.toNat }
  match (ReqKind.ofCode kind.toNat).bind (fun k => decodeBody h k body) with
  | some i => i
  | none => .unknownRequest h kind

/-! ## Craft lines (R185) -/

/-- The characters of a word or a line. -/
abbrev Text := List Byte

/-- The bytes of a text. -/
def ascii (s : String) : Text := s.toList.map (fun c => BitVec.ofNat 8 c.toNat)

/-- Splits a text at every separator. -/
def splitText (sep : Byte) : Text → List Text
  | [] => [[]]
  | b :: rest =>
    match splitText sep rest with
    | [] => [[b]]
    | w :: ws => if b = sep then [] :: w :: ws else (b :: w) :: ws

/-- The words of a line: what stands between its spaces (R185; log entry 14). -/
def wordsOf (line : Text) : List Text := (splitText 0x20#8 line).filter (fun w => !w.isEmpty)

/-- A decimal number without group separators. -/
def readDecimal (t : Text) : Option Nat :=
  if t = [] then none
  else
    t.foldl (fun n b => n.bind (fun n =>
      if 0x30#8 ≤ b ∧ b ≤ 0x39#8 then some (10 * n + (b.toNat - 0x30)) else none)) (some 0)

/-- The value of a hexadecimal digit. -/
def hexDigit (b : Byte) : Option Nat :=
  if 0x30#8 ≤ b ∧ b ≤ 0x39#8 then some (b.toNat - 0x30)
  else if 0x41#8 ≤ b ∧ b ≤ 0x46#8 then some (b.toNat - 0x41 + 10)
  else if 0x61#8 ≤ b ∧ b ≤ 0x66#8 then some (b.toNat - 0x61 + 10)
  else none

/-- A serial: 12 hexadecimal digits, capitals or small; the rules give no case (log entry 25). -/
def readHexSerial (t : Text) : Option Serial :=
  if t.length = 12 then
    (t.foldl (fun n b => n.bind (fun n => (hexDigit b).map (fun d => 16 * n + d))) (some 0)).map (BitVec.ofNat 48)
  else none

/-- A yes-or-no value: `on` or `off`. -/
def readOnOff (t : Text) : Option Bool :=
  if t = ascii "on" then some true else if t = ascii "off" then some false else none

/-- A mode: LISTED or OPEN. -/
def readModeName (t : Text) : Option Mode :=
  if t = ascii "LISTED" then some .listed else if t = ascii "OPEN" then some .opened else none

/-- All the values of a list, or none when one cannot be read. -/
def allRead {α : Type} : List (Option α) → Option (List α)
  | [] => some []
  | x :: rest => x.bind (fun a => (allRead rest).map (fun as => a :: as))

/-- A change point: its second and its band joined with a colon. -/
def readPointText (t : Text) : Option ChangePoint :=
  match splitText 0x3A#8 t with
  | [a, b] => (readDecimal a).bind (fun x => (readDecimal b).map (fun y => { second := x, band := y }))
  | _ => none

/-- A list of change points separated by commas; an empty value is an empty list. -/
def readPointsText (t : Text) : Option (List ChangePoint) :=
  if t = [] then some [] else allRead ((splitText 0x2C#8 t).map readPointText)

/-- The name=value words of a line, in their order. -/
abbrev NamedValues := List (Text × Text)

/-- The name and the value of a name=value word. -/
def splitPair (t : Text) : Option (Text × Text) :=
  match splitText 0x3D#8 t with
  | name :: value :: more => some (name, value ++ (more.map (fun m => 0x3D#8 :: m)).flatten)
  | _ => none

/-- Reads the name=value words of a kind whose fields have the names given: no field twice, and none the kind does not have (R185). -/
def readPairs (names : List Text) : List Text → Option NamedValues
  | [] => some []
  | w :: rest =>
    (splitPair w).bind (fun p => (readPairs names rest).bind (fun ps =>
      if p.1 ∈ names ∧ p.1 ∉ ps.map (·.1) then some (p :: ps) else none))

/-- An optional field: none when its value cannot be read. -/
def optionalField {α : Type} (ps : NamedValues) (name : String) (read : Text → Option α) : Option (Option α) :=
  match ps.find? (fun p => p.1 = ascii name) with
  | none => some none
  | some p => (read p.2).map some

/-- A required field: none when it is missing or its value cannot be read. -/
def requiredField {α : Type} (ps : NamedValues) (name : String) (read : Text → Option α) : Option α :=
  (optionalField ps name read).bind id

/-- The name of a request kind (R189 catalogue). -/
def kindName : ReqKind → String
  | .identify => "IDENTIFY" | .restartPart => "RESTART_PART" | .setClock => "SET_CLOCK" | .readClock => "READ_CLOCK"
  | .setPermission => "SET_PERMISSION" | .readPermission => "READ_PERMISSION" | .setTree => "SET_TREE"
  | .readTree => "READ_TREE" | .restartTree => "RESTART_TREE" | .holdTree => "HOLD_TREE" | .releaseHold => "RELEASE_HOLD"
  | .setDefaultService => "SET_DEFAULT_SERVICE" | .allowSerial => "ALLOW_SERIAL" | .disallowSerial => "DISALLOW_SERIAL"
  | .barSerial => "BAR_SERIAL" | .pinSerial => "PIN_SERIAL" | .readDirectory => "READ_DIRECTORY" | .readHome => "READ_HOME"
  | .dismissHome => "DISMISS_HOME" | .setService => "SET_SERVICE" | .readService => "READ_SERVICE"
  | .startSearch => "START_SEARCH" | .abortSearch => "ABORT_SEARCH" | .readSearch => "READ_SEARCH"
  | .releaseHome => "RELEASE_HOME" | .expelHome => "EXPEL_HOME" | .setTariff => "SET_TARIFF" | .readTariff => "READ_TARIFF"
  | .setQuota => "SET_QUOTA" | .resetPeriod => "RESET_PERIOD" | .closeAll => "CLOSE_ALL" | .readUsage => "READ_USAGE"
  | .readJournal => "READ_JOURNAL" | .seekJournal => "SEEK_JOURNAL" | .exportDone => "EXPORT_DONE"
  | .readJournalState => "READ_JOURNAL_STATE" | .readBuffers => "READ_BUFFERS"

/-- Whether a kind's tree field is used, so that its line has a tree word (R185, R189 catalogue). -/
def usesTree (k : ReqKind) : Bool :=
  k ∈ [ReqKind.setTree, .readTree, .restartTree, .holdTree, .releaseHold, .setDefaultService, .allowSerial, .readHome,
    .dismissHome, .setService, .readService, .startSearch, .abortSearch, .readSearch, .releaseHome, .expelHome, .setQuota,
    .resetPeriod, .closeAll, .readUsage, .readBuffers]

/-- The names of the six service fields. -/
def serviceNames : List String := ["cr", "pr", "ba", "tr", "w", "dw"]

/-- The names of a kind's fields (R189 catalogue). -/
def fieldNames : ReqKind → List String
  | .setClock => ["day", "second"]
  | .setPermission => ["kind", "allow"]
  | .setTree => ["mode", "discovery", "di", "hold", "reach", "ert", "overhead", "status_interval", "rise", "fall",
      "auto_search", "span"]
  | .setDefaultService => serviceNames
  | .allowSerial => ["serial"]
  | .disallowSerial => ["serial"]
  | .barSerial => ["serial"]
  | .pinSerial => ["serial", "pin"]
  | .readDirectory => ["start"]
  | .readHome => ["line"]
  | .dismissHome => ["line"]
  | .setService => "line" :: serviceNames
  | .readService => ["line"]
  | .releaseHome => ["line"]
  | .expelHome => ["line"]
  | .setTariff => ["points"]
  | .setQuota => ["line", "quota", "warn"]
  | .resetPeriod => ["line"]
  | .readUsage => ["line"]
  | .seekJournal => ["seq"]
  | .exportDone => ["seq"]
  | .readBuffers => ["line"]
  | .identify => [] | .restartPart => [] | .readClock => [] | .readPermission => [] | .readTree => [] | .restartTree => []
  | .holdTree => [] | .releaseHold => [] | .startSearch => [] | .abortSearch => [] | .readSearch => [] | .readTariff => []
  | .closeAll => [] | .readJournal => [] | .readJournalState => []

/-- The service fields of a line. -/
def serviceOf (ps : NamedValues) : Option ServiceChange := do
  let cr ← optionalField ps "cr" readDecimal
  let pr ← optionalField ps "pr" readDecimal
  let ba ← optionalField ps "ba" readDecimal
  let tr ← optionalField ps "tr" readDecimal
  let w ← optionalField ps "w" readDecimal
  let dw ← optionalField ps "dw" readDecimal
  some { cr := cr, pr := pr, ba := ba, tr := tr, w := w, dw := dw }

/-- The settings of a SET_TREE line. -/
def treeFieldsOf (ps : NamedValues) : Option TreeFields := do
  let mode ← optionalField ps "mode" readModeName
  let discovery ← optionalField ps "discovery" readOnOff
  let di ← optionalField ps "di" readDecimal
  let hold ← optionalField ps "hold" readDecimal
  let reach ← optionalField ps "reach" readDecimal
  let ert ← optionalField ps "ert" readDecimal
  let overhead ← optionalField ps "overhead" readDecimal
  let status ← optionalField ps "status_interval" readDecimal
  let rise ← optionalField ps "rise" readDecimal
  let fall ← optionalField ps "fall" readDecimal
  let auto ← optionalField ps "auto_search" readOnOff
  let span ← optionalField ps "span" readDecimal
  some { mode := mode, discovery := discovery, di := di, hold := hold, reach := reach, ert := ert, overhead := overhead,
         statusInterval := status, rise := rise, fall := fall, autoSearch := auto, span := span }

/-- The request of kind `k` that the fields of a line make, or none where a value cannot be read or a required field is missing (R185). -/
def decodeFields (h : Head) (k : ReqKind) (ps : NamedValues) : Option Instr :=
  let line := requiredField ps "line" readDecimal
  let lineOption := optionalField ps "line" readDecimal
  let serial := requiredField ps "serial" readHexSerial
  let seq := requiredField ps "seq" readDecimal
  match k with
  | .identify => some (.identify h)
  | .restartPart => some (.restartPart h)
  | .setClock =>
    (requiredField ps "day" readDecimal).bind (fun d => (requiredField ps "second" readDecimal).map (fun x => .setClock h d x))
  | .readClock => some (.readClock h)
  | .setPermission =>
    (requiredField ps "kind" readDecimal).bind (fun n => (requiredField ps "allow" readOnOff).map (fun a => .setPermission h n a))
  | .readPermission => some (.readPermission h)
  | .setTree => (treeFieldsOf ps).map (.setTree h)
  | .readTree => some (.readTree h)
  | .restartTree => some (.restartTree h)
  | .holdTree => some (.holdTree h)
  | .releaseHold => some (.releaseHold h)
  | .setDefaultService => (serviceOf ps).map (.setDefaultService h)
  | .allowSerial => serial.map (.allowSerial h)
  | .disallowSerial => serial.map (.disallowSerial h)
  | .barSerial => serial.map (.barSerial h)
  | .pinSerial => serial.bind (fun x => (requiredField ps "pin" readOnOff).map (fun b => .pinSerial h x b))
  | .readDirectory => (optionalField ps "start" readDecimal).map (.readDirectory h)
  | .readHome => line.map (.readHome h)
  | .dismissHome => line.map (.dismissHome h)
  | .setService => line.bind (fun l => (serviceOf ps).map (fun f => .setService h l f))
  | .readService => line.map (.readService h)
  | .startSearch => some (.startSearch h)
  | .abortSearch => some (.abortSearch h)
  | .readSearch => some (.readSearch h)
  | .releaseHome => line.map (.releaseHome h)
  | .expelHome => line.map (.expelHome h)
  | .setTariff => (requiredField ps "points" readPointsText).map (.setTariff h)
  | .readTariff => some (.readTariff h)
  | .setQuota =>
    lineOption.bind (fun l => (optionalField ps "quota" readDecimal).bind (fun q =>
      (optionalField ps "warn" readDecimal).map (fun w => .setQuota h l q w)))
  | .resetPeriod => lineOption.map (.resetPeriod h)
  | .closeAll => some (.closeAll h)
  | .readUsage => lineOption.map (.readUsage h)
  | .readJournal => some (.readJournal h)
  | .seekJournal => seq.map (.seekJournal h)
  | .exportDone => seq.map (.exportDone h)
  | .readJournalState => some (.readJournalState h)
  | .readBuffers => lineOption.map (.readBuffers h)

/-- A tree word: a decimal 0..3, or `all`, which stands for 15. Another decimal is read, as a number out of range, so that the owner refuses it with
BAD_VALUE (R188). -/
def readTreeWord (t : Text) : Option Nat :=
  if t = ascii "all" then some 15 else (readDecimal t).map (fun n => if n < 4 then n else 16)

/-- The request the words of a line make, or none where it cannot be read. -/
def decodeWords (k : ReqKind) (ws : List Text) : Option Instr :=
  let names := (fieldNames k).map ascii
  if usesTree k then
    match ws with
    | [] => none
    | w :: rest =>
      (readTreeWord w).bind (fun n => (readPairs names rest).bind (decodeFields { link := .craft, tag := 0, tree := n } k))
  else (readPairs names ws).bind (decodeFields { link := .craft, tag := 0, tree := 0 } k)

/-- Whether a line may be read at all: at most 160 characters, every byte in 20h..7Eh (R185). -/
def lineGood (t : Text) : Bool := decide (t.length ≤ 160) && t.all (fun b => decide (0x20#8 ≤ b) && decide (b ≤ 0x7E#8))

/-- The kind a word names, in capitals (R185). -/
def kindOfWord (w : Text) : Option ReqKind := ReqKind.all.find? (fun k => ascii (kindName k) = w)

/-- The request a line makes (R185); one that cannot be read makes an UNKNOWN_REQUEST, of kind byte 0 where its kind is unknown. -/
def decodeLine (t : Text) : Instr :=
  let unknown := fun (kind : Byte) => (.unknownRequest { link := .craft, tag := 0, tree := 0 } kind : Instr)
  if lineGood t then
    match wordsOf t with
    | [] => unknown 0
    | w :: ws =>
      match kindOfWord w with
      | some k => (decodeWords k ws).getD (unknown k.byte)
      | none => unknown 0
  else unknown 0

end Sys2Proof
end

