-- ==== Sys2Proof/Machine/Directory.lean ====
section
/-! DEFINITION. The serial directory (02_home_table_and_serial_directory.md, R26 to R39): buckets, placing and eviction, the
lookup and the claim of the enrolment engine, release, ageing, and the requests on the directory. -/

namespace Sys2Proof.Machine

/-- The six bytes of a serial, most significant first (R16, R27). -/
def serialBytes (x : Serial) : List Byte :=
  [x.extractLsb' 40 8, x.extractLsb' 32 8, x.extractLsb' 24 8, x.extractLsb' 16 8, x.extractLsb' 8 8, x.extractLsb' 0 8]

/-- The bucket of a serial: the sum of its six bytes, modulo 256 (R27). -/
def bucketOf (x : Serial) : Nat := ((serialBytes x).map BitVec.toNat).sum % 256

/-- The four entry positions of a bucket, in the order of its ways (R27, R38). -/
def waysOf (bucket : Nat) : List Nat := [4 * bucket, 4 * bucket + 1, 4 * bucket + 2, 4 * bucket + 3]

/-- A lookup: the ways of the serial's bucket in order, and the entry whose serial matches (R27). -/
def dirLookup (d : List (Nat × DirEntry)) (x : Serial) : Option (Nat × DirEntry) :=
  (waysOf (bucketOf x)).findSome? (fun p =>
    match storeGet d p with
    | some e => if e.serial = x then some (p, e) else none
    | none => none)

/-- The age of a REFUSED entry at a position, none when no REFUSED entry stands there. -/
def refusedAge (d : List (Nat × DirEntry)) (p : Nat) : Option Nat :=
  match storeGet d p with
  | some { serial := _, body := .refused _ age } => some age
  | _ => none

/-- The REFUSED entry of greatest age among the positions given, of two with equal age the one in the lower way (R27). -/
def oldestRefused (d : List (Nat × DirEntry)) : List Nat → Option (Nat × Nat)
  | [] => none
  | p :: rest =>
    match refusedAge d p, oldestRefused d rest with
    | some a, some (q, b) => if b ≤ a then some (p, a) else some (q, b)
    | some a, none => some (p, a)
    | none, r => r

/-- The way a new entry takes: the lowest empty way, else the way of the REFUSED entry that is evicted, else none (R27). -/
def dirWay (d : List (Nat × DirEntry)) (x : Serial) : Option Nat :=
  match (waysOf (bucketOf x)).find? (fun p => (storeGet d p).isNone) with
  | some p => some p
  | none => (oldestRefused d (waysOf (bucketOf x))).map (·.1)

/-- Places a new entry for a serial that has none; none when its bucket has no room (R27). -/
def dirPlace (d : List (Nat × DirEntry)) (x : Serial) (b : DirBody) : Option (List (Nat × DirEntry)) :=
  (dirWay d x).map (fun p => storePut d p { serial := x, body := b })

/-- `s` with its directory replaced. -/
def State.withDirectory (s : State) (d : List (Nat × DirEntry)) : State := { s with directory := d }

/-- `s` with the entry at a position changed by `f`; unchanged when the way is empty. -/
def State.modEntry (s : State) (p : Nat) (f : DirBody → DirBody) : State :=
  match storeGet s.directory p with
  | some e => s.withDirectory (storePut s.directory p { e with body := f e.body })
  | none => s

/-- The entry a slot's link names (Table 2-1). -/
def State.linkedEntry (s : State) (t : TreeId) (l : Line) : Option DirEntry :=
  (s.slot t l).link.bind (storeGet s.directory)

/-- The serial of the home in a slot, by its directory link. -/
def State.serialOf (s : State) (t : TreeId) (l : Line) : Option Serial := (s.linkedEntry t l).map (·.serial)

/-- A PRESENT entry with the age given; any other entry as it is. -/
def DirBody.withAge (age : Option Nat) : DirBody → DirBody
  | .present t l o p _ => .present t l o p age
  | b => b

/-- Sets the age of the entry linked to a slot (R31, R33, R56, R59). -/
def State.setAge (s : State) (t : TreeId) (l : Line) (age : Option Nat) : State :=
  match (s.slot t l).link with
  | some p => s.modEntry p (DirBody.withAge age)
  | none => s

/-! ## What the directory does for the enrolment engine -/

/-- The answers of a lookup (R29, R47). -/
inductive LookupAnswer where
  | barred (due : Bool)
  | refused
  | none
  | expected (binding : Option TreeId)
  | present (tree : TreeId) (line : Line) (origin : Origin) (pinned : Bool)
  deriving DecidableEq, Repr, Inhabited

/-- The lookup of a hello's serial heard on tree `t` (R29): a barred serial whose notice is due has its age set to 0; a serial with
no entry on a LISTED tree becomes REFUSED where its bucket has room. -/
def State.lookupHello (s : State) (t : TreeId) (x : Serial) : State × LookupAnswer :=
  match dirLookup s.directory x with
  | some (p, e) =>
    match e.body with
    | .barred age =>
      if age = none ∨ 64 ≤ age.getD 0 then (s.modEntry p (fun _ => .barred (some 0)), .barred true)
      else (s, .barred false)
    | .refused _ _ => (s, .refused)
    | .expected b _ => (s, .expected b)
    | .present u l o pin _ => (s, .present u l o pin)
  | none =>
    match (s.tree t).settings.mode with
    | .listed =>
      match dirPlace s.directory x (.refused t 0) with
      | some d => (s.withDirectory d, .none)
      | none => (s, .none)
    | .opened => (s, .none)

/-- The claim of a serial for a slot (R30): an EXPECTED entry becomes PRESENT in its way, a serial with no entry is placed with
origin OPEN; the position claimed, or none when the bucket has no room. -/
def State.claim (s : State) (x : Serial) (t : TreeId) (l : Line) : Option (State × Nat) :=
  match dirLookup s.directory x with
  | some (p, e) =>
    match e.body with
    | .expected b pin => some (s.modEntry p (fun _ => .present t l (.listed b) pin none), p)
    | _ => none
  | none =>
    (dirWay s.directory x).map (fun p =>
      (s.withDirectory (storePut s.directory p { serial := x, body := .present t l .opened false none }), p))

/-- Release to the prior state (R31): a LISTED entry returns to EXPECTED with its binding and pinned flag, an OPEN one is removed. -/
def State.releasePrior (s : State) (p : Nat) : State :=
  match storeGet s.directory p with
  | some { serial := x, body := .present _ _ (.listed b) pin _ } =>
    s.withDirectory (storePut s.directory p { serial := x, body := .expected b pin })
  | some { serial := _, body := .present _ _ .opened _ _ } => s.withDirectory (storeDel s.directory p)
  | _ => s

/-- Release to BARRED (R31), for EXPEL_HOME. -/
def State.releaseBarred (s : State) (p : Nat) : State := s.modEntry p (fun _ => .barred none)

/-- Relink, for a move between trees (R31): the entry stays PRESENT with the tree and line of the new slot, and its age absent. -/
def State.relink (s : State) (p : Nat) (t : TreeId) (l : Line) : State :=
  s.modEntry p (fun b => match b with
    | .present _ _ o pin _ => .present t l o pin none
    | b => b)

/-! ## Ageing (R33) -/

/-- One entry at a second event (R33): a REFUSED entry whose age reaches 64 is removed (none). -/
def State.agedBody (s : State) : DirBody → Option DirBody
  | .refused t age => if age + 1 < 64 then some (.refused t (age + 1)) else none
  | .barred (some age) => some (.barred (some (if age < 64 then age + 1 else age)))
  | .present t l o pin (some age) =>
    some (.present t l o pin
      (some (if (s.slot t l).state = .lost ∧ age < (s.tree t).settings.hold then age + 1 else age)))
  | b => some b

/-- The directory ages its entries (R33). -/
def State.ageDirectory (s : State) : State :=
  s.withDirectory (s.directory.filterMap (fun p => (s.agedBody p.2.body).map (fun b => (p.1, { p.2 with body := b }))))

/-- The directory tells the engine of each LOST slot whose age stands at or above its tree's hold time (R33); a tell that finds the
expiry already told or waiting changes nothing. -/
def State.tellExpiries (s : State) : State :=
  s.directory.foldl (fun s p =>
    match p.2.body with
    | .present t l _ _ (some age) =>
      if (s.slot t l).state = .lost ∧ (s.tree t).settings.hold ≤ age ∧ (s.slot t l).expiry = .quiet then
        s.modSlot t l (fun x => { x with expiry := .told })
      else s
    | _ => s) s

/-- REFUSED_ENTRY_EXPIRY: the ageing of one REFUSED entry that takes its age to 64, so that it is removed (R33). It is the part of a
second event that concerns this entry, due once the second has fallen and until SECOND_EVENT ages every entry (log entry 7). -/
def execRefusedEntryExpiry (x : Serial) (s : State) : Host.Outcome State Fault Refusal :=
  s.live fun s =>
    match dirLookup s.directory x with
    | some (p, { serial := _, body := .refused _ age }) =>
      if s.time.secondsDue ≠ [] ∧ 63 ≤ age then s.withDirectory (storeDel s.directory p) else s
    | _ => s

/-! ## Requests on the directory -/

/-- The binding a tree field gives: 0..3, or unbound for 15 (R34). -/
def bindingOf (n : Nat) : Option (Option TreeId) := if n = 15 then some none else (oneTree n).map some

/-- A state and a refusal that changes nothing. -/
def refused (s : State) (c : Code) : State × Answer := (s, refuse c)

/-- A state and a plain DONE. -/
def finished (s : State) : State × Answer := (s, doneWith .none)

/-- The owner's part of ALLOW_SERIAL (R34). -/
def allowOwner (tree : Nat) (x : Serial) (s : State) : State × Answer :=
  match bindingOf tree with
  | none => refused s .badValue
  | some b =>
    match dirLookup s.directory x with
    | none =>
      match dirPlace s.directory x (.expected b false) with
      | some d => finished (s.withDirectory d)
      | none => refused s .full
    | some (p, e) =>
      match e.body with
      | .refused _ _ => finished (s.modEntry p (fun _ => .expected b false))
      | .expected _ pin => finished (s.modEntry p (fun _ => .expected b pin))
      | .present t l _ pin age => finished (s.modEntry p (fun _ => .present t l (.listed b) pin age))
      | .barred _ => refused s .conflict

/-- ALLOW_SERIAL (R34). -/
def execAllowSerial (h : Head) (x : Serial) (s : State) : Host.Outcome State Fault Refusal :=
  s.live fun s => s.request h .allowSerial (allowOwner h.tree x)

/-- The owner's part of DISALLOW_SERIAL (R35). -/
def disallowOwner (x : Serial) (s : State) : State × Answer :=
  match dirLookup s.directory x with
  | none => refused s .notFound
  | some (p, e) =>
    match e.body with
    | .present t l _ pin age => finished (s.modEntry p (fun _ => .present t l .opened pin age))
    | _ => finished (s.withDirectory (storeDel s.directory p))

/-- DISALLOW_SERIAL (R35). -/
def execDisallowSerial (h : Head) (x : Serial) (s : State) : Host.Outcome State Fault Refusal :=
  s.live fun s => s.request h .disallowSerial (disallowOwner x)

/-- The owner's part of BAR_SERIAL (R36). -/
def barOwner (x : Serial) (s : State) : State × Answer :=
  match dirLookup s.directory x with
  | none =>
    match dirPlace s.directory x (.barred none) with
    | some d => finished (s.withDirectory d)
    | none => refused s .full
  | some (p, e) =>
    match e.body with
    | .expected _ _ => finished (s.modEntry p (fun _ => .barred none))
    | .refused _ _ => finished (s.modEntry p (fun _ => .barred none))
    | .barred _ => finished s
    | .present _ _ _ _ _ => refused s .conflict

/-- BAR_SERIAL (R36). -/
def execBarSerial (h : Head) (x : Serial) (s : State) : Host.Outcome State Fault Refusal :=
  s.live fun s => s.request h .barSerial (barOwner x)

/-- The owner's part of PIN_SERIAL (R37). -/
def pinOwner (x : Serial) (pin : Bool) (s : State) : State × Answer :=
  match dirLookup s.directory x with
  | none => refused s .notFound
  | some (p, e) =>
    match e.body with
    | .expected b _ => finished (s.modEntry p (fun _ => .expected b pin))
    | .present t l o _ age => finished (s.modEntry p (fun _ => .present t l o pin age))
    | .refused _ _ => refused s .conflict
    | .barred _ => refused s .conflict

/-- PIN_SERIAL (R37). -/
def execPinSerial (h : Head) (x : Serial) (pin : Bool) (s : State) : Host.Outcome State Fault Refusal :=
  s.live fun s => s.request h .pinSerial (pinOwner x pin)

/-- How many entries a READ_DIRECTORY reply carries on a link (R38). -/
def directoryLimit : Link → Nat
  | .controller => 16
  | .craft => 4

/-- The owner's part of READ_DIRECTORY (R38). -/
def readDirectoryOwner (k : Link) (start : Option Nat) (s : State) : State × Answer :=
  let cursor := clampedOr 0 1024 (s.link k).dirCursor start
  let ahead := s.directory.filter (fun p => cursor ≤ p.1)
  let entries := ahead.take (directoryLimit k)
  let cursor' :=
    match ahead.drop (directoryLimit k), entries.getLast? with
    | _ :: _, some p => p.1 + 1
    | _, _ => 1024
  (s.modLink k (fun x => { x with dirCursor := cursor' }),
   settled (firstMarked [(1, outOfRange 0 1024 start)]) (.directory entries cursor'))

/-- READ_DIRECTORY (R38). -/
def execReadDirectory (h : Head) (start : Option Nat) (s : State) : Host.Outcome State Fault Refusal :=
  s.live fun s => s.request h .readDirectory (readDirectoryOwner h.link start)

end Sys2Proof.Machine
end

