-- ==== Sys2Proof/Machine/Meter.lean ====
section
/-! DEFINITION. The usage meter's operations (08_usage_metering_and_tariffs.md; R17): day clock and band, closes and merges,
the close queue and the due list, billing with carries, outage frames and quotas. Its requests stand in Machine/Usage.lean. -/

namespace Sys2Proof.Machine

/-! ## Clock and tariff (R149, R150) -/

/-- A stamp: day × 86,400 + second, or 0 while the clock is unset (R146, R153). -/
def stampOf : Option Clock → Nat
  | some c => c.day * 86400 + c.second
  | none => 0

/-- The clock one second on; from day 65,535 at second 86,399 to day 0, second 0 (R149). -/
def Clock.tick (c : Clock) : Clock :=
  if c.second < 86399 then { c with second := c.second + 1 }
  else if c.day < 65535 then { day := c.day + 1, second := 0 }
  else { day := 0, second := 0 }

/-- The band of the last change point at or before a second, if any. -/
def bandAt (schedule : List ChangePoint) (second : Nat) : Option Nat :=
  ((schedule.filter (fun p => p.second ≤ second)).getLast?).map (·.band)

/-- The band in force (R150): 0 while the schedule is empty or the clock unset; the band of the last change point at or before the
clock's second; before the first change point, the band of the schedule's last. -/
def bandInForce (schedule : List ChangePoint) (clock : Option Clock) : Nat :=
  match clock, schedule.getLast? with
  | some c, some lastPoint => (bandAt schedule c.second).getD lastPoint.band
  | _, _ => 0

/-- The band in force. -/
def State.band (s : State) : Nat := bandInForce s.meter.schedule s.meter.clock

/-! ## Counts of an account (R17) -/

/-- The three counts an account bills. -/
inductive CountField where
  | up | down | outage
  deriving DecidableEq, Repr, Inhabited

/-- The maximum of a count (R17, Table 1-9). -/
def CountField.max : CountField → Nat
  | .up => Config.byteMax
  | .down => Config.byteMax
  | .outage => Config.countMax

/-- One of the three counts. -/
def Counts.get (c : Counts) : CountField → Nat
  | .up => c.up
  | .down => c.down
  | .outage => c.outage

/-- The counts with one of the three changed. -/
def Counts.set (c : Counts) (f : CountField) (n : Nat) : Counts :=
  match f with
  | .up => { c with up := n }
  | .down => { c with down := n }
  | .outage => { c with outage := n }

/-! ## Closes (R153, R155, R157, R158) -/

/-- `s` with the usage meter changed by `f`. -/
def State.modMeter (s : State) (f : Meter → Meter) : State := { s with meter := f s.meter }

/-- `s` with an account position replaced. -/
def State.setAccount (s : State) (t : TreeId) (l : Line) (a : AccountPos) : State :=
  s.modSlot t l (fun x => { x with account := a })

/-- Whether the close queue has a free position (R156). -/
def State.queueHasRoom (s : State) : Bool := s.meter.queue.length < Config.closeCap

/-- The record of a close (R153): with CLOCK_UNSET, and both stamps 0, when the account carries it or the clock is unset. -/
def recordOf (a : Account) (t : TreeId) (l : Line) (kind : RecordKind) (moved : Bool) (clock : Option Clock) : Record :=
  let unset := a.clockUnset || clock.isNone
  { tree := t, line := l, kind := kind, band := a.band, clockUnset := unset, merged := a.merged, throttled := a.throttled,
    moved := moved, serial := a.serial, start := if unset then 0 else a.start, stop := if unset then 0 else stampOf clock,
    counts := a.counts }

/-- The interval that opens when the queue has taken the record of an INTERVAL close (R153). -/
def Account.nextInterval (a : Account) (r : Record) (band : Nat) (clock : Option Clock) : Account :=
  { a with counts := a.carries, carries := {}, start := r.stop, band := band, merged := false,
           throttled := decide (a.quotaState = .throttled), clockUnset := clock.isNone }

/-- An INTERVAL close of one account (R153); when all positions are taken it merges (R157). A position without an open account is
left as it is. -/
def State.closeInterval (s : State) (t : TreeId) (l : Line) : State :=
  match (s.slot t l).account with
  | .opened a =>
    if s.queueHasRoom then
      let r := recordOf a t l .interval false s.meter.clock
      (s.modMeter (fun m => { m with queue := m.queue ++ [r], intervalCloses := bump m.intervalCloses })).setAccount t l
        (.opened (a.nextInterval r s.band s.meter.clock))
    else
      (s.modMeter (fun m => { m with mergedCloses := bump m.mergedCloses })).setAccount t l
        (.opened { a with merged := true })
  | _ => s

/-- Whether a slot holds an open account. -/
def Slot.accountOpen (x : Slot) : Bool :=
  match x.account with
  | .opened _ => true
  | _ => false

/-- The home slots of some trees, in the order of R151: tree ascending, then line ascending. -/
def slotsOf (ts : List TreeId) : List (TreeId × Line) := ts.flatMap (fun t => allLines.map (fun l => (t, l)))

/-- Closes every open account of the trees as INTERVAL records in the order of R151, and counts the accounts closed and the accounts
merged (R151, R154). -/
def State.closeTrees (s : State) (ts : List TreeId) : State × Nat × Nat :=
  ((slotsOf ts).filter (fun p => (s.slot p.1 p.2).accountOpen)).foldl (fun (acc : State × Nat × Nat) p =>
    if acc.1.queueHasRoom then (acc.1.closeInterval p.1 p.2, acc.2.1 + 1, acc.2.2)
    else (acc.1.closeInterval p.1 p.2, acc.2.1, acc.2.2 + 1)) (s, 0, 0)

/-- Whether any carry is held (R17). -/
def Counts.any (c : Counts) : Bool := c.up ≠ 0 || c.down ≠ 0 || c.outage ≠ 0

/-- Offers a close's records to the queue; those it has no room for stay as the slot's close due, and the slot joins the end of the due
list (R155). -/
def State.queueOrDue (s : State) (t : TreeId) (l : Line) (r : Record) (second : Option Record) : State :=
  let free := Config.closeCap - s.meter.queue.length
  let becomeDue := fun (s : State) (first : Record) (second : Option Record) =>
    (s.modMeter (fun m => { m with due := m.due ++ [(t, l)], dueCloses := bump m.dueCloses })).setAccount t l (.due first second)
  if free = 0 then becomeDue s r second
  else
    match second with
    | none => (s.modMeter (fun m => { m with queue := m.queue ++ [r] })).setAccount t l .empty
    | some r2 =>
      if free = 1 then becomeDue (s.modMeter (fun m => { m with queue := m.queue ++ [r] })) r2 none
      else (s.modMeter (fun m => { m with queue := m.queue ++ [r, r2] })).setAccount t l .empty

/-- The close of a slot that becomes FREE (R155), with a second record for the carries (R17); nothing for a slot without an open
account. -/
def State.closeFinal (s : State) (t : TreeId) (l : Line) (kind : RecordKind) (moved : Bool) : State :=
  match (s.slot t l).account with
  | .opened a =>
    let r := recordOf a t l kind moved s.meter.clock
    s.queueOrDue t l r (if a.carries.any then some { r with counts := a.carries } else none)
  | _ => s

/-- A position of the close queue becomes free: the first due record of the due list takes it (R158). -/
def State.moveDue (s : State) : State :=
  match s.meter.due with
  | [] => s
  | (t, l) :: rest =>
    match (s.slot t l).account with
    | .due r none => (s.modMeter (fun m => { m with queue := m.queue ++ [r], due := rest })).setAccount t l .empty
    | .due r (some r2) => (s.modMeter (fun m => { m with queue := m.queue ++ [r] })).setAccount t l (.due r2 none)
    | _ => s.modMeter (fun m => { m with due := rest })

/-! ## Billing (R17, R147, R148) -/

/-- Bills `n` to one count of an open account (R17). While the carry is above 0 the billing goes into it and the close is tried again; a
billing past the maximum closes the interval first, and where the queue has no room what the count cannot take goes into the carry. -/
def State.billCount (s : State) (t : TreeId) (l : Line) (f : CountField) (n : Nat) : State :=
  match (s.slot t l).account with
  | .opened a =>
    if 0 < a.carries.get f then
      (s.setAccount t l (.opened { a with carries := a.carries.set f (min (a.carries.get f + n) f.max) })).closeInterval t l
    else if a.counts.get f + n ≤ f.max then
      s.setAccount t l (.opened { a with counts := a.counts.set f (a.counts.get f + n) })
    else
      let s' := s.closeInterval t l
      match (s'.slot t l).account with
      | .opened b =>
        if s.queueHasRoom then s'.setAccount t l (.opened { b with counts := b.counts.set f (min (b.counts.get f + n) f.max) })
        else
          s'.setAccount t l (.opened { b with counts := b.counts.set f f.max,
                                              carries := b.carries.set f (min (b.counts.get f + n - f.max) f.max) })
      | _ => s'
  | _ => s

/-- The warning level of a home: floor(warn level × quota / 8) (R160). -/
def warningLevel (warn quota : Nat) : Nat := warn * quota / 8

/-- The quota state after a billing event, and the notices it raises in order (R161). -/
def judgeBilling (a : Account) : QuotaState × List NoticeKind :=
  if a.quota = 0 then (a.quotaState, [])
  else if a.quota ≤ a.period then
    match a.quotaState with
    | .throttled => (.throttled, [])
    | .normal => (.throttled, [.quotaWarning, .quotaReached])
    | .warned => (.throttled, [.quotaReached])
  else if warningLevel a.warn a.quota ≤ a.period ∧ a.quotaState = .normal then (.warned, [.quotaWarning])
  else (a.quotaState, [])

/-- The quota state after a change of quota or warn level, and the notices it raises (R161). -/
def judgeQuota (a : Account) : QuotaState × List NoticeKind :=
  if a.quota = 0 then (.normal, [])
  else if a.quota ≤ a.period then (.throttled, if a.quotaState = .throttled then [] else [.quotaReached])
  else if warningLevel a.warn a.quota ≤ a.period then (.warned, if a.quotaState = .normal then [.quotaWarning] else [])
  else (.normal, [])

/-- Gives an open account the quota state judged: entering THROTTLED sets the account's flag, and the notices go out (R161). -/
def State.applyQuota (s : State) (t : TreeId) (l : Line) (a : Account) (j : QuotaState × List NoticeKind) : State :=
  let flag := a.throttled || (decide (j.1 = .throttled) && decide (a.quotaState ≠ .throttled))
  j.2.foldl (fun s k => s.raiseHome k t l (.serial a.serial))
    (s.setAccount t l (.opened { a with quotaState := j.1, throttled := flag }))

/-- A billing event of `n` bytes, upstream or downstream (R147): the count, the period bytes, and the quota. A slot with no open
account counts nothing. -/
def State.billBytes (s : State) (t : TreeId) (l : Line) (f : CountField) (n : Nat) : State :=
  let s := s.billCount t l f n
  match (s.slot t l).account with
  | .opened a =>
    let a' := { a with period := min (a.period + n) Config.byteMax }
    s.applyQuota t l a' (judgeBilling a')
  | _ => s

/-- The outage frames of one frame start (R148): one for every open account of the tree whose slot is QUARANTINED or muted. The rule gives the
accounts no order, which matters where several overflow and the close queue is nearly full (R17); the model goes by line index, ascending (log entry
77). -/
def State.countOutage (s : State) (t : TreeId) : State :=
  (allLines.filter (fun l =>
    (s.slot t l).accountOpen && (decide ((s.slot t l).state = .quarantined) || (s.slot t l).muted))).foldl
    (fun s l => s.billCount t l .outage 1) s

/-- The account that opens when a slot becomes ACTIVE as NEW (R146, R160). -/
def openingAccount (x : Serial) (c : Settings) (band : Nat) (clock : Option Clock) : Account :=
  { serial := x, start := stampOf clock, band := band, clockUnset := clock.isNone, merged := false, throttled := false,
    counts := {}, carries := {}, period := 0, quota := c.quota, warn := c.warn, quotaState := .normal }

/-- The quota state of a slot's home, NORMAL where no account is open (R66, R139). -/
def Slot.isThrottled (x : Slot) : Bool :=
  match x.account with
  | .opened a => a.quotaState = .throttled
  | _ => false

end Sys2Proof.Machine
end

