-- ==== Sys2Proof/Machine/Traffic.lean ====
section
/-! DEFINITION. Traffic buffers (07_traffic_buffers.md): the block pool, downstream admission, the pause, the data-area fill,
the uplink queues, the trunk transmitter, and READ_BUFFERS. -/

namespace Sys2Proof.Machine

/-! ## The pool (R131) -/

/-- The blocks a packet occupies: its length divided by 128, rounded up (R131). -/
def packetBlocks (p : Packet) : Nat := ceilDiv p.length 128

/-- The blocks of a queue. -/
def queueBlocks (q : List Packet) : Nat := (q.map packetBlocks).sum

/-- The downstream hold H_t: the blocks of all home queues and the broadcast queue of a tree (R131). -/
def TreeState.downHold (T : TreeState) : Nat :=
  (T.slots.toList.map (fun x => queueBlocks x.queue)).sum + queueBlocks T.traffic.broadcast

/-- The uplink hold U_t: the blocks of the uplink queue of a tree (R131). -/
def TreeState.upHold (T : TreeState) : Nat := queueBlocks (T.traffic.uplink.map (·.2))

/-- The blocks a tree's downstream hold places in the shared region (R131). -/
def sharedPart (hold : Nat) : Nat := hold - Config.downReserve

/-- The shared free count (R131). -/
def State.sharedFree (s : State) : Nat :=
  Config.sharedRegion - (allTrees.map (fun t => sharedPart (s.tree t).downHold)).sum

/-- The pause state judged in an event that may have changed the shared free count (R136): below 1,024 it becomes ON with a pause request
of 500 µs, at 2,048 or more OFF with a request of duration 0. -/
def State.judgePause (s : State) : State :=
  if s.sharedFree < 1024 ∧ s.trunk.pauseOn = false then
    { s with trunk := { s.trunk with pauseOn := true, lastPause := some 500, pauseRequests := bump s.trunk.pauseRequests } }
  else if 2048 ≤ s.sharedFree ∧ s.trunk.pauseOn = true then
    { s with trunk := { s.trunk with pauseOn := false, lastPause := some 0 } }
  else s

/-- At a frame boundary of the timebase, while the pause is ON, the pause request is sent again (R136). -/
def State.refreshPause (s : State) : State :=
  if s.trunk.pauseOn then
    { s with trunk := { s.trunk with lastPause := some 500, pauseRequests := bump s.trunk.pauseRequests } }
  else s

/-! ## Downstream admission (R132 to R134) -/

/-- Whether a packet joins a queue of tree `t` that holds `held` blocks: the queue's cap of 512 blocks, and what the reserve and the
shared region can supply (R133). -/
def State.queueTakes (s : State) (t : TreeId) (held : Nat) (p : Packet) : Bool :=
  let k := packetBlocks p
  let hold := (s.tree t).downHold
  decide (held + k ≤ Config.queueCap) && decide (sharedPart (hold + k) - sharedPart hold ≤ s.sharedFree)

/-- Whether a slot in a state takes downstream packets (R132). -/
def takesPackets : HomeState → Bool
  | .active => true
  | .cooldown => true
  | .lost => true
  | .quarantined => true
  | .free => false
  | .assigned => false
  | .ranging => false

/-- Whether a home queue is served in a state (R135). -/
def isServed : HomeState → Bool
  | .active => true
  | .cooldown => true
  | .quarantined => true
  | .free => false
  | .assigned => false
  | .ranging => false
  | .lost => false

/-- The arrival of a trunk packet (R132 to R134). -/
def State.trunkArrival (s : State) (t : TreeId) (l : Line) (broadcast : Bool) (p : Packet) : State :=
  if p.length < 64 ∨ 2000 < p.length then
    { s with trunk := { s.trunk with malformed := bump s.trunk.malformed } }
  else if broadcast then
    if s.queueTakes t (queueBlocks (s.tree t).traffic.broadcast) p then
      (s.modTraffic t (fun x => { x with broadcast := x.broadcast ++ [p] })).judgePause
    else s.modTraffic t (fun x => { x with broadcastDrops := bump x.broadcastDrops })
  else if takesPackets (s.slot t l).state then
    if s.queueTakes t (queueBlocks (s.slot t l).queue) p then
      (s.modSlot t l (fun x => { x with queue := x.queue ++ [p] })).judgePause
    else s.modSlot t l (fun x => { x with tailDrops := bump x.tailDrops })
  else s.modTraffic t (fun x => { x with noHome := bump x.noHome })

/-- TRUNK_PACKET_ARRIVAL (R132). -/
def execTrunkPacketArrival (t : TreeId) (l : Line) (broadcast : Bool) (bytes : List Byte) (s : State) :
    Host.Outcome State Fault Refusal :=
  s.live fun s => s.trunkArrival t l broadcast bytes

/-! ## What a state change does to a home queue (R135) -/

/-- A turn of the rotation open on a slot is closed when the slot leaves the served states (R135). -/
def TreeTraffic.closeTurn (x : TreeTraffic) (l : Line) : TreeTraffic :=
  if x.rotation = l then { x with openTurn := false } else x

/-- The traffic buffer is told of a slot's new state (R20, R135): LOST and RANGING set the deficit to 0 and close an open turn. FREE is
`TreeState.flushQueue`. -/
def TreeState.tellTraffic (T : TreeState) (l : Line) : TreeState :=
  match (T.slot l).state with
  | .lost => { T.modSlot l (fun x => { x with deficit := 0 }) with traffic := T.traffic.closeTurn l }
  | .ranging => { T.modSlot l (fun x => { x with deficit := 0 }) with traffic := T.traffic.closeTurn l }
  | .assigned => { T with traffic := T.traffic.closeTurn l }
  | .free => { T with traffic := T.traffic.closeTurn l }
  | .active => T
  | .cooldown => T
  | .quarantined => T

/-- The queue of a slot that becomes FREE (R135): its packets are released and counted as flushed, its deficit, allowance and tail-drop
count become 0, and a turn open on it is closed. -/
def TreeState.flushQueue (T : TreeState) (l : Line) : TreeState :=
  let n := (T.slot l).queue.length
  { T.modSlot l (fun x => { x with queue := [], deficit := 0, allowance := 0, tailDrops := 0 }) with
    traffic := { T.traffic.closeTurn l with flushed := min (T.traffic.flushed + n) Config.countMax } }

/-! ## Filling the data area (R137 to R140) -/

/-- The data-area capacity of a frame with `g` grants and `m` messages (R5). -/
def dataCapacity (g m : Nat) : Nat := 300000 - 16 - 6 * g - 16 * m

/-- The broadcast phase (R137): packets from the head while the bytes taken stay within 30,000 and the packet and its tag fit. Returns the
packets taken, the packets left, and what remains of C. -/
def broadcastPhase (taken capacity : Nat) : List Packet → List Packet × List Packet × Nat
  | [] => ([], [], capacity)
  | p :: rest =>
    if taken + p.length ≤ Config.broadcastLimit ∧ p.length + 4 ≤ capacity then
      let (out, left, c) := broadcastPhase (taken + p.length) (capacity - (p.length + 4)) rest
      (p :: out, left, c)
    else ([], p :: rest, capacity)

/-- The throttle allowance at the start of a fill (R139). -/
def allowanceAtFill (x : Slot) : Nat :=
  if x.isThrottled then
    let tr := match x.service with
      | some r => r.live.tr
      | none => 0
    min (x.allowance + tr) (max tr 2000)
  else 0

/-- How a turn of the rotation ends (R138): on to the next candidate, or the end of the fill. -/
inductive TurnEnd where
  | goOn | fillEnds
  deriving DecidableEq, Repr, Inhabited

/-- What a turn leaves: the packets placed, the queue, the deficit, the allowance, what remains of C, and how it ended. -/
structure Turn where
  placed    : List Packet
  queue     : List Packet
  deficit   : Nat
  allowance : Nat
  capacity  : Nat
  ending    : TurnEnd
  deriving DecidableEq, Repr, Inhabited

/-- One turn (R138): each head packet is tested against the deficit, the allowance of a throttled home and what remains of C, and placed. -/
def runTurn (throttled : Bool) (deficit allowance capacity : Nat) : List Packet → Turn
  | [] => { placed := [], queue := [], deficit := 0, allowance := allowance, capacity := capacity, ending := .goOn }
  | p :: rest =>
    if deficit < p.length then
      { placed := [], queue := p :: rest, deficit := deficit, allowance := allowance, capacity := capacity, ending := .goOn }
    else if throttled && decide (allowance < p.length) then
      { placed := [], queue := p :: rest, deficit := min deficit 1999, allowance := allowance, capacity := capacity,
        ending := .goOn }
    else if capacity < p.length + 4 then
      { placed := [], queue := p :: rest, deficit := deficit, allowance := allowance, capacity := capacity,
        ending := .fillEnds }
    else
      let r := runTurn throttled (deficit - p.length) (if throttled then allowance - p.length else allowance)
        (capacity - (p.length + 4)) rest
      { r with placed := p :: r.placed }

/-- The homes throttled in a fill: those THROTTLED at the frame start (R139). -/
abbrev ThrottledSet := List Line

/-- Whether a home is a candidate (R138): its queue served and not empty and, if throttled, its head packet within its allowance. -/
def TreeState.candidate (T : TreeState) (th : ThrottledSet) (l : Line) : Bool :=
  let x := T.slot l
  match x.queue with
  | [] => false
  | p :: _ => isServed x.state && (decide (l ∉ th) || decide (p.length ≤ x.allowance))

/-- The lines in order from `l`, wrapping past 127 to 0. -/
def linesFrom (l : Line) : List Line :=
  allLines.filter (fun x => l.val ≤ x.val) ++ allLines.filter (fun x => x.val < l.val)

/-- The first candidate at or above `l`, wrapping (R138). -/
def TreeState.nextCandidate (T : TreeState) (th : ThrottledSet) (l : Line) : Option Line :=
  (linesFrom l).find? (T.candidate th)

/-- Gives the home at `l` its turn with the deficit it starts from. Returns the tree, the packets placed, what remains of C and how the turn
ended. -/
def TreeState.takeTurn (T : TreeState) (th : ThrottledSet) (l : Line) (quantum capacity : Nat) :
    TreeState × List (Line × Packet) × Nat × TurnEnd :=
  let x := T.slot l
  let r := runTurn (decide (l ∈ th)) (x.deficit + quantum) x.allowance capacity x.queue
  (T.modSlot l (fun x => { x with queue := r.queue, deficit := r.deficit, allowance := r.allowance }),
   r.placed.map (fun p => (l, p)), r.capacity, r.ending)

/-- The quantum of a turn: dw × 1,518 bytes, dw the live downstream weight (R138). -/
def quantumOf (x : Slot) : Nat :=
  match x.service with
  | some r => r.live.dw * 1518
  | none => 0

/-- The rotation's turns, each beginning with a quantum, from the first candidate at or above `start` (R138). `had` is the last home that had a
turn. At the end of a fill the pointer stands on the home with its turn open; when no candidate is left it stands after `had`. -/
def TreeState.rotate (T : TreeState) (th : ThrottledSet) (fuel : Nat) (start : Line) (had : Option Line) (capacity : Nat) :
    TreeState × List (Line × Packet) :=
  let close := fun (T : TreeState) =>
    { T with traffic := { T.traffic with rotation := (had.map nextLine).getD T.traffic.rotation, openTurn := false } }
  match fuel with
  | 0 => (close T, [])
  | fuel + 1 =>
    match T.nextCandidate th start with
    | none => (close T, [])
    | some l =>
      let (T, placed, c, ending) := T.takeTurn th l (quantumOf (T.slot l)) capacity
      match ending with
      | .fillEnds => ({ T with traffic := { T.traffic with rotation := l, openTurn := true } }, placed)
      | .goOn =>
        let (T, more) := T.rotate th fuel (nextLine l) (some l) c
        (T, placed ++ more)

/-- A bound on the turns of one fill that no fill reaches: at most 4,411 packets fit a data area, every turn but a home's first two in a row
places one, and there are 128 homes. -/
def rotationFuel : Nat := 10000

/-- The rotation of one fill (R138): an open turn resumes without a quantum when its home is a candidate, else the mark is cleared and the
rotation starts at the next line. -/
def TreeState.rotation (T : TreeState) (th : ThrottledSet) (capacity : Nat) : TreeState × List (Line × Packet) :=
  let p := T.traffic.rotation
  if T.traffic.openTurn then
    if T.candidate th p then
      let (T, placed, c, ending) := T.takeTurn th p 0 capacity
      match ending with
      | .fillEnds => (T, placed)
      | .goOn =>
        let (T, more) := T.rotate th rotationFuel (nextLine p) (some p) c
        (T, placed ++ more)
    else T.rotate th rotationFuel (nextLine p) none capacity
  else T.rotate th rotationFuel p none capacity

/-- The fill of a tree's data area (R137 to R140): the throttle allowances, the broadcast phase, the rotation. Returns the tree and the packets
in the order placed, a broadcast packet with no line. -/
def TreeState.fill (T : TreeState) (capacity : Nat) : TreeState × List (Option Line × Packet) :=
  let th := allLines.filter (fun l => (T.slot l).isThrottled)
  let T := T.mapSlots (fun _ x => { x with allowance := allowanceAtFill x })
  let (out, left, c) := broadcastPhase 0 capacity T.traffic.broadcast
  let T := { T with traffic := { T.traffic with broadcast := left } }
  let (T, homes) := T.rotation th c
  (T, out.map (fun p => (none, p)) ++ homes.map (fun q => (some q.1, q.2)))

/-- The downstream bytes of a fill are billed packet by packet (R140, R147); broadcast packets are billed to no one. -/
def State.billFill (s : State) (t : TreeId) (packets : List (Option Line × Packet)) : State :=
  packets.foldl (fun s p =>
    match p.1 with
    | some l => s.billBytes t l .down p.2.length
    | none => s) s

/-! ## Upstream (R141 to R143) -/

/-- The trees in order from `t`, wrapping past 3 to 0. -/
def treesFrom (t : TreeId) : List TreeId :=
  allTrees.filter (fun x => t.val ≤ x.val) ++ allTrees.filter (fun x => x.val < t.val)

/-- The trunk transmitter, when IDLE and not held, takes the head packet of the first tree from the pointer whose uplink queue is not empty
(R142). -/
def State.trunkTake (s : State) : State :=
  match s.trunk.sending, s.trunk.held with
  | none, none =>
    match (treesFrom s.trunk.pointer).find? (fun t => !(s.tree t).traffic.uplink.isEmpty) with
    | some t => { s with trunk := { s.trunk with sending := some t, pointer := nextTree t } }
    | none => s
  | _, _ => s

/-- The admission of an upstream packet to the uplink queue of its tree, billed to the home when it is taken (R141). -/
def State.admitUplink (s : State) (t : TreeId) (l : Line) (p : Packet) : State :=
  if (s.tree t).upHold + packetBlocks p ≤ Config.upReserve then
    ((s.modTraffic t (fun x => { x with uplink := x.uplink ++ [(l, p)] })).billBytes t l .up p.length).trunkTake
  else s.modTraffic t (fun x => { x with uplinkDrops := bump x.uplinkDrops })

/-- TRUNK_TRANSMIT_COMPLETE (R142): the packet leaves its queue, the transmitter becomes IDLE and takes the next. -/
def execTrunkTransmitComplete (s : State) : Host.Outcome State Fault Refusal :=
  s.live fun s =>
    match s.trunk.sending with
    | some t =>
      let s := s.modTraffic t (fun x => { x with uplink := x.uplink.drop 1 })
      ({ s with trunk := { s.trunk with sending := none } }).trunkTake
    | none => s

/-- TRUNK_PAUSE_REQUEST (R143): the transmitter is held for the duration in µs; a request of duration 0 ends the hold at once. -/
def execTrunkPauseRequest (duration : Nat) (s : State) : Host.Outcome State Fault Refusal :=
  s.live fun s =>
    if duration = 0 then ({ s with trunk := { s.trunk with held := none } }).trunkTake
    else { s with trunk := { s.trunk with held := some duration } }

/-- TRUNK_HOLD_END (R143): the hold expires and the transmitter takes the next packet. -/
def execTrunkHoldEnd (s : State) : Host.Outcome State Fault Refusal :=
  s.live fun s =>
    match s.trunk.held with
    | some _ => ({ s with trunk := { s.trunk with held := none } }).trunkTake
    | none => s

/-! ## Restart and readout (R144, R145) -/

/-- The traffic buffer's part of a tree restart, after the slots have been freed (R145): the broadcast queue is released, the uplink queue but
for a packet being sent, the rotation pointer, the open-turn mark and the tree's counts. -/
def State.restartTraffic (s : State) (t : TreeId) : State :=
  (s.modTraffic t (fun x =>
    { TreeTraffic.reset with uplink := if s.trunk.sending = some t then x.uplink.take 1 else [] })).judgePause

/-- The items of READ_BUFFERS for one tree (R144). -/
def State.bufferTree (s : State) (t : TreeId) : BufferTree :=
  let T := s.tree t
  { tree := t, downHold := T.downHold, upHold := T.upHold, broadcastBlocks := queueBlocks T.traffic.broadcast,
    broadcastPackets := T.traffic.broadcast.length, uplinkBlocks := T.upHold, uplinkPackets := T.traffic.uplink.length,
    noHome := T.traffic.noHome, broadcastDrops := T.traffic.broadcastDrops, flushed := T.traffic.flushed,
    uplinkDrops := T.traffic.uplinkDrops }

/-- The items of READ_BUFFERS for one home (R144). -/
def State.bufferHome (s : State) (t : TreeId) (l : Line) : BufferHome :=
  let x := s.slot t l
  { blocks := queueBlocks x.queue, packets := x.queue.length, deficit := x.deficit, allowance := x.allowance,
    tailDrops := x.tailDrops }

/-- READ_BUFFERS' reply for the trees and the scope given: the free count of each of their regions, the shared free count, and their items
(R144). -/
def State.buffersView (s : State) (ts : List TreeId) (scope : BufferScope) : BuffersView :=
  { downFree := ts.map (fun t => Config.downReserve - min (s.tree t).downHold Config.downReserve),
    upFree := ts.map (fun t => Config.upReserve - (s.tree t).upHold), sharedFree := s.sharedFree, scope := scope,
    trees := ts.map s.bufferTree }

/-- The reply of READ_BUFFERS for one tree, with or without a line (R144). -/
def State.buffersOfTree (s : State) (t : TreeId) (home : Option BufferHome) : BuffersView :=
  let queues := (allLines.filter (fun l => !(s.slot t l).queue.isEmpty)).length
  s.buffersView [t] (.tree s.trunk.pauseOn s.trunk.held.isSome s.trunk.pointer s.trunk.malformed s.trunk.pauseRequests
    (s.tree t).traffic.rotation (s.tree t).traffic.openTurn queues home)

/-- The owner's part of READ_BUFFERS (R144). -/
def readBuffersOwner (tree : Nat) (line : Option Nat) (s : State) : State × Answer :=
  if tree = 15 then
    match line with
    | some _ => refused s .badValue
    | none =>
      (s, doneWith (.buffers (s.buffersView allTrees
        (.part s.trunk.pauseOn s.trunk.held.isSome s.trunk.pointer s.trunk.malformed s.trunk.pauseRequests))))
  else
    match oneTree tree, line with
    | none, _ => refused s .badValue
    | some t, none => (s, doneWith (.buffers (s.buffersOfTree t none)))
    | some t, some n =>
      match oneLine n with
      | none => refused s .badValue
      | some l => (s, doneWith (.buffers (s.buffersOfTree t (some (s.bufferHome t l)))))

/-- READ_BUFFERS (R144). -/
def execReadBuffers (h : Head) (line : Option Nat) (s : State) : Host.Outcome State Fault Refusal :=
  s.live fun s => s.request h .readBuffers (readBuffersOwner h.tree line)

end Sys2Proof.Machine
end

