-- ==== Sys2Proof/Machine/Home.lean ====
section
/-! DEFINITION. The state changes of a home slot with their hand-offs (R20 to R23), the freeing of a slot (R21), quarantine (R128), the loss of
a home (R59), and READ_HOME (R24). -/

namespace Sys2Proof.Machine

/-! ## What the isolation search is told (R115, R117, R123) -/

/-- A test in stage SENDING moves to OBSERVING in the event that empties its retry list and its awaited set (R115); its span length is the
setting at that moment (R116). -/
def Test.settle (x : Test) (span : Nat) : Test :=
  if x.observing = false ∧ x.retry = [] ∧ x.awaited = [] then { x with observing := true, span := span, counted := 0, lit := 0 }
  else x

/-- The search with its current test changed by `f` and then settled. -/
def TreeState.modTest (T : TreeState) (f : Test → Test) : TreeState :=
  { T with search := { T.search with test := T.search.test.map (fun x => (f x).settle T.settings.span) } }

/-- A member's slot has become FREE (R115, R117, R128): its line leaves the awaited set, the retry list, the release list and the
pending-release set. -/
def TreeState.searchForgets (T : TreeState) (l : Line) : TreeState :=
  let T := T.modTest (fun x => { x with awaited := dropLine x.awaited l, retry := x.retry.filter (fun p => p.1 ≠ l) })
  { T with search := { T.search with release := dropLine T.search.release l, pending := dropLine T.search.pending l } }

/-- A member has become QUARANTINED (R115, R117): it leaves the retry list and the release list, and stays awaited. -/
def TreeState.searchQuarantined (T : TreeState) (l : Line) : TreeState :=
  let T := T.modTest (fun x => { x with retry := x.retry.filter (fun p => p.1 ≠ l) })
  { T with search := { T.search with release := dropLine T.search.release l } }

/-! ## State changes (R20, R22, R23) -/

/-- The held drift offer of a line is dropped (R61: the run has ended, or the slot has left ACTIVE and COOLDOWN). -/
def Engine.dropDrift (e : Engine) (l : Line) : Engine := { e with driftHeld := e.driftHeld.filter (fun p => p.1 ≠ l) }

/-- The held DISMISS offer of a line is dropped (R50, R59, R120). -/
def Engine.dropDismiss (e : Engine) (l : Line) : Engine := { e with dismissHeld := dropLine e.dismissHeld l }

/-- The slot enters RANGING from any state (R23): the miss count, drift run, misplaced count and cooldown frames become 0 and the quarantine
cause absent; its entry's age becomes absent (R31), a DISMISS offer of R59 and an overrun MUTE offer of R102 stop, and the traffic buffer is
told (R135). -/
def State.enterRanging (s : State) (t : TreeId) (l : Line) : State :=
  let s := s.setAge t l none
  s.modTree t (fun T =>
    let T := T.modSlot l (fun x =>
      { x with state := .ranging, miss := 0, drift := {}, misplaced := 0, cooldown := 0, cause := none, expiry := .quiet })
    { T.tellTraffic l with
      engine := (T.engine.dropDrift l).dropDismiss l
      receiver := { T.receiver with muteWaits := dropLine T.receiver.muteWaits l } })

/-- The slot becomes ACTIVE from RANGING (R23): the miss count, drift run, misplaced count and frames-since-grant become 0. -/
def State.enterActive (s : State) (t : TreeId) (l : Line) : State :=
  s.modSlot t l (fun x => { x with state := .active, miss := 0, drift := {}, misplaced := 0, sinceGrant := 0 })

/-- Offers a DISMISS for a line and holds the offer while the queue refuses it (R56, R59, R64). -/
def State.offerDismiss (s : State) (t : TreeId) (l : Line) : State :=
  let (s, ok) := s.offer t (.dismiss l)
  if ok then s.modEngine t (fun e => e.dropDismiss l)
  else s.modEngine t (fun e => { e with dismissHeld := joinLine e.dismissHeld l })

/-- A notice of a kind whose details are the serial of the home in a slot (Table 10-1). -/
def State.raiseSerial (s : State) (kind : NoticeKind) (t : TreeId) (l : Line) : State :=
  s.raiseHome kind t l (.serial ((s.serialOf t l).getD 0))

/-- The slot becomes LOST (R59, R56, R64): the counters keep their values (R23), its entry's age becomes 0, HOME_LOST is raised and a DISMISS
is offered. Its line leaves the planner's lists at once, since no context awaits a grant for it (log entry 79). -/
def State.enterLost (s : State) (t : TreeId) (l : Line) : State :=
  let s := s.setAge t l (some 0)
  let s := s.modTree t (fun T =>
    let T := T.modSlot l (fun x => { x with state := .lost, expiry := .quiet })
    { T.tellTraffic l with engine := T.engine.dropDrift l, planner := T.planner.dropLine l })
  (s.raiseSerial .homeLost t l).offerDismiss t l

/-- The slot becomes QUARANTINED (R22, R100, R120, R128): its muted flag is set and its cooldown frames stand; from LOST its entry's age
becomes absent and the DISMISS offers stop; from RANGING its context is released, with the DELAYs it has queued, and its line leaves the planner's
lists (R120). QUARANTINED is raised, naming the serial and the cause. -/
def State.enterQuarantined (s : State) (t : TreeId) (l : Line) (cause : QuarantineCause) : State :=
  let s := s.setAge t l none
  let ranged := decide ((s.slot t l).state = .ranging)
  let s := s.modTree t (fun T =>
    let T := T.modSlot l (fun x => { x with state := .quarantined, cause := some cause, muted := true, expiry := .quiet })
    let T := (T.tellTraffic l).searchQuarantined l
    { T with
      framer := if ranged then T.framer.disown l else T.framer
      engine := ((T.engine.releaseContext l).dropDrift l).dropDismiss l
      planner := T.planner.dropLine l })
  s.raiseHome .quarantined t l (.quarantined ((s.serialOf t l).getD 0) cause)

/-! ## Freeing a slot (R21) -/

/-- Why a slot becomes FREE, which decides what becomes of its entry and its account (R21, R31, R155). -/
inductive FreeCause where
  | left        -- hold expiry, dismissal, a failed or abandoned enrolment
  | moved       -- a move to another tree; the mover relinks the entry
  | expelled
  | treeRestart
  deriving DecidableEq, Repr, Inhabited

/-- The record kind of the close of a slot that becomes FREE (R21, R155). -/
def FreeCause.recordKind : FreeCause → RecordKind
  | .treeRestart => .treeRestart
  | .left => .final
  | .moved => .final
  | .expelled => .final

/-- Step 1 of R21: the directory entry is released as the cause requires (R31). -/
def State.releaseEntry (s : State) (t : TreeId) (l : Line) (c : FreeCause) : State :=
  match (s.slot t l).link with
  | none => s
  | some p =>
    match c with
    | .moved => s
    | .expelled => s.releaseBarred p
    | .left => s.releasePrior p
    | .treeRestart => s.releasePrior p

/-- A slot becomes FREE with the hand-offs of R21, in their order: the entry, the line messages, the account, the context (its line leaves the
planner's lists with it: log entry 79), and the fields. -/
def State.freeSlot (s : State) (t : TreeId) (l : Line) (c : FreeCause) : State :=
  let s := s.releaseEntry t l c
  let s := s.withdraw t (LineMsg.withdrawn l)
  let s := s.closeFinal t l c.recordKind (decide (c = .moved))
  let s := s.modTree t (fun T =>
    let T := (T.flushQueue l).searchForgets l
    let T := T.modSlot l (fun x => { Slot.free with account := x.account })
    { T with
      engine := ((T.engine.releaseContext l).dropDrift l).dropDismiss l
      planner := T.planner.dropLine l
      receiver := { T.receiver with muteWaits := dropLine T.receiver.muteWaits l } })
  s.judgePause

/-- A slot is available to an enrolment (R19): FREE, no close due, and no DISMISS offer held for its line. -/
def TreeState.available (T : TreeState) (l : Line) : Bool :=
  decide ((T.slot l).state = .free) && decide ((T.slot l).account = .empty) && decide (l ∉ T.engine.dismissHeld)

/-- The lowest available line index of a tree, if any (R19). -/
def TreeState.availableSlot (T : TreeState) : Option Line := allLines.find? T.available

/-- The enrolment engine takes a slot (R19): ASSIGNED, linked to the claimed entry, every other field at its FREE value. -/
def State.takeSlot (s : State) (t : TreeId) (l : Line) (link : Nat) : State :=
  s.modSlot t l (fun _ => { Slot.free with state := .assigned, link := some link })

/-! ## READ_HOME (R24) -/

/-- Whether an account position holds a close due (R155). -/
def AccountPos.isDue : AccountPos → Bool
  | .due _ _ => true
  | .empty => false
  | .opened _ => false

/-- The age of the entry linked to a slot. -/
def State.ageOf (s : State) (t : TreeId) (l : Line) : Option Nat :=
  match s.linkedEntry t l with
  | some { serial := _, body := .present _ _ _ _ age } => age
  | _ => none

/-- The present contents of a slot as READ_HOME gives them (R24). The seconds left before the hold expiry are the hold time less the age; where a
SET_TREE has lowered the hold time below the age, the model gives 0 (log entry 52). -/
def State.homeView (s : State) (t : TreeId) (l : Line) : HomeView :=
  let x := s.slot t l
  { state := x.state, cause := if x.state = .quarantined then x.cause else none, serial := s.serialOf t l, eqd := x.eqd,
    miss := x.miss, drift := x.drift, misplaced := x.misplaced, overruns := x.overruns, cooldown := x.cooldown,
    muted := x.muted, sinceGrant := x.sinceGrant,
    holdLeft := if x.state = .lost then some ((s.tree t).settings.hold - (s.ageOf t l).getD 0) else none,
    closeDue := x.account.isDue }

/-- The owner's part of READ_HOME (R24). -/
def readHomeOwner (tree line : Nat) (s : State) : State × Answer :=
  match treeAndLine tree line with
  | none => refused s .badValue
  | some (t, l) => (s, doneWith (.home (s.homeView t l)))

/-- READ_HOME (R24). -/
def execReadHome (h : Head) (line : Nat) (s : State) : Host.Outcome State Fault Refusal :=
  s.live fun s => s.request h .readHome (readHomeOwner h.tree line)

end Sys2Proof.Machine
end

