-- ==== Sys2Proof/Machine/Journal.lean ====
section
/-! DEFINITION. The billing journal (09_the_billing_journal.md): slots and sectors, programming, the write-sector advance, the full journal,
erasing and suspension, the start-up scan, and the journal requests. -/

namespace Sys2Proof.Machine

/-- The 32 sectors, ascending. -/
def allSectors : List (Fin 32) := List.finRange 32

/-- The key of a journal slot in the array. -/
def slotKey (sector : Fin 32) (slot : Nat) : Nat := sector.val * Config.slotsPerSector + slot

/-- The sector number of a key. -/
def keySector (key : Nat) : Nat := key / Config.slotsPerSector

/-- `s` with the journal changed by `f`. -/
def State.modJournal (s : State) (f : Journal → Journal) : State := { s with journal := f s.journal }

/-- The journal with a sector changed by `f`. -/
def Journal.modSector (j : Journal) (k : Fin 32) (f : Sector → Sector) : Journal :=
  { j with sectors := j.sectors.set k (f j.sectors[k]) }

/-- The state of a sector. -/
def Journal.stateOf (j : Journal) (k : Fin 32) : SectorState := (j.sectors[k]).state

/-- The cells of one sector. -/
def Journal.cellsOf (j : Journal) (k : Fin 32) : List (Nat × Cell) := j.array.filter (fun p => keySector p.1 = k.val)

/-- Whether every slot of a sector is ERASED. -/
def Journal.allErased (j : Journal) (k : Fin 32) : Bool := (j.cellsOf k).isEmpty

/-- The first ERASED slot of a sector at or after a slot number. -/
def Journal.erasedFrom (j : Journal) (k : Fin 32) (slot : Nat) : Option Nat :=
  (List.range Config.slotsPerSector).find? (fun i => decide (slot ≤ i) && (storeGet j.array (slotKey k i)).isNone)

/-- The number of ERASED slots of the write sector from the write position on (R172). An ERASED slot before it, which a scan can leave where it judges
a timed-out slot, is not counted: the write position never comes back to it (log entry 73). -/
def Journal.erasedLeft (j : Journal) : Nat :=
  match j.writeSector with
  | none => 0
  | some k =>
    ((List.range Config.slotsPerSector).filter
      (fun i => decide (j.writePos ≤ i) && (storeGet j.array (slotKey k i)).isNone)).length

/-- Whether some sector is in a state. -/
def Journal.someSector (j : Journal) (st : SectorState) : Bool := allSectors.any (fun k => j.stateOf k = st)

/-- The valid records with their keys: the records of WRITTEN slots, but for the sector in its erase step (R164). -/
def Journal.validCells (j : Journal) : List (Nat × Nat × Record) :=
  j.array.filterMap (fun p =>
    match p.2 with
    | { state := .written, contents := .whole seq r } =>
      if j.batch.current.any (fun k => k.val = keySector p.1) then none else some (p.1, seq, r)
    | _ => none)

/-- The valid records of one sector, by sequence number (R177, R183). -/
def Journal.validSeqs (j : Journal) (k : Fin 32) : List Nat :=
  (j.validCells.filter (fun v => keySector v.1 = k.val)).map (fun v => v.2.1)

/-! ## Judging slots (R164) -/

/-- The judgement of slots from their contents, in order of sector and slot: FFh is ERASED (unlisted), a good record WRITTEN unless its sequence
number has been seen, any other contents TORN (R164). -/
def judgeCells (seen : List Nat) : List (Nat × Cell) → List (Nat × Cell)
  | [] => []
  | (key, c) :: rest =>
    match c.contents with
    | .blank => judgeCells seen rest
    | .damaged => (key, { state := .torn, contents := .damaged }) :: judgeCells seen rest
    | .whole seq r =>
      if seq ∈ seen then (key, { state := .torn, contents := .whole seq r }) :: judgeCells seen rest
      else (key, { state := .written, contents := .whole seq r }) :: judgeCells (seq :: seen) rest

/-- What an erase that did not complete left of one slot (R179, R181; free value, log entry 2). -/
def remainOfErase (draw slot : Nat) (c : Option Cell) : Option Cell :=
  match Config.eraseRemains draw slot with
  | .asItWas => c
  | .blank => none
  | .damaged => some { state := .torn, contents := .damaged }

/-- The array after an erase of a sector did not complete. -/
def leaveErase (draw : Nat) (k : Fin 32) (array : List (Nat × Cell)) : List (Nat × Cell) :=
  (List.range Config.slotsPerSector).foldl (fun a i =>
    match remainOfErase draw i (storeGet a (slotKey k i)) with
    | some c => storePut a (slotKey k i) c
    | none => storeDel a (slotKey k i)) array

/-- What a program that did not end verified left in its slot (R164, R181; free value, log entry 1). -/
def remainOfProgram (draw : Nat) (p : Program) : Contents :=
  match Config.programRemains draw with
  | .blank => .blank
  | .whole => .whole p.seq p.record
  | .damaged => .damaged

/-! ## The record at the head of the close queue (R156, R170) -/

/-- The record at the head: a MARK being programmed or retried, the record being programmed or retried, a waiting MARK, or the first record
(R156). -/
def Meter.head (m : Meter) : Option Record :=
  match m.headMark with
  | some r => some r
  | none =>
    if m.headHeld then m.queue.head?
    else
      match m.mark with
      | some r => some r
      | none => m.queue.head?

/-- Whether the head is the retry of a record whose program has failed (R170, R172). -/
def Meter.headIsRetry (m : Meter) : Bool := m.headMark.isSome || m.headHeld

/-- The head becomes the record being programmed: a waiting MARK leaves the MARK position (R156). -/
def Meter.holdHead (m : Meter) : Meter :=
  if m.headIsRetry then m
  else
    match m.mark with
    | some r => { m with mark := none, headMark := some r }
    | none => { m with headHeld := true }

/-- The record programmed leaves the close queue (R156, R169). -/
def Meter.dropHead (m : Meter) : Meter :=
  match m.headMark with
  | some _ => { m with headMark := none }
  | none => { m with queue := m.queue.drop 1, headHeld := false }

/-! ## Conditions (R171, R172) -/

/-- Whether a mark, once written, would make at least one FULL sector eligible for erase (R172, R177). -/
def Journal.markFrees (j : Journal) (mark : Nat) : Bool :=
  allSectors.any (fun k => decide (j.stateOf k = .full) && (j.validSeqs k).all (fun q => q ≤ max mark j.exportMark))

/-- The slot for the record at the head, if a program is due (R168, R172). -/
def State.programDue (s : State) : Option (Record × Fin 32 × Nat) :=
  let j := s.journal
  match j.program, s.meter.head, j.writeSector with
  | none, some r, some k =>
    if Config.lastSequence ≤ j.next then none
    else
      match j.condition with
      | .ready => some (r, k, j.writePos)
      | .full =>
        if s.meter.headIsRetry || (decide (r.kind = .mark) && j.markFrees r.counts.up) then some (r, k, j.writePos) else none
      | .scanning => none
      | .stopped => none
  | _, _, _ => none

/-- Whether the journal stands in its reserve: no sector is ERASED, and at most 8 slots of the write sector are left (R172). -/
def Journal.inReserve (j : Journal) : Bool := !j.someSector .erased && decide (j.erasedLeft ≤ 8)

/-- Whether no record can take a reserve slot, now or later, and no erase is coming (R172): the head is no retry, and there is no FULL sector that a
MARK could make eligible for erase. -/
def Journal.reserveBarred (j : Journal) (retry : Bool) : Bool :=
  !retry && !j.someSector .full && !j.someSector .erasePending

/-- The condition R172 gives the journal, from READY or FULL; `retry` says whether the head of the close queue is the retry of a record whose
program has failed. A READY journal that reaches a reserve no record can use meets both of the rule's events at once; that it becomes STOPPED, with
one JOURNAL_FULL of cause STOPPED, is the model's choice (log entry 67). -/
def Journal.judgedCondition (j : Journal) (retry : Bool) : Condition :=
  match j.condition with
  | .scanning => .scanning
  | .stopped => .stopped
  | c =>
    if Config.lastSequence ≤ j.next then .stopped
    else
      match j.writeSector with
      | none => if j.someSector .erasePending then .full else .stopped
      | some _ =>
        if j.inReserve then (if j.reserveBarred retry then .stopped else .full) else c

/-- The journal takes the condition R172 gives; JOURNAL_FULL is raised when it becomes FULL or STOPPED. -/
def State.judgeCondition (s : State) : State :=
  let c := s.journal.judgedCondition s.meter.headIsRetry
  if c = s.journal.condition then s
  else
    match c with
    | .full =>
      (s.modJournal (fun j => { j with condition := .full, cause := some .noSector })).raisePart .journalFull
        (.journalFull .noSector)
    | .stopped =>
      (s.modJournal (fun j => { j with condition := .stopped, cause := some .stopped })).raisePart .journalFull
        (.journalFull .stopped)
    | .ready => s
    | .scanning => s

/-! ## Erase eligibility and the batch (R177, R178) -/

/-- Whether a FULL sector is eligible for erase (R177). -/
def Journal.eligible (j : Journal) (k : Fin 32) : Bool :=
  decide (j.stateOf k = .full) && (j.validSeqs k).all (fun q => q ≤ j.exportMark)

/-- A sector that has become ERASE_PENDING joins the batch as R178 gives. -/
def Batch.join (b : Batch) (k : Fin 32) : Batch :=
  match b.state with
  | .none => { state := .gathering, list := [k], todo := [k], current := none, suspends := b.suspends }
  | .gathering => { b with list := b.list ++ [k], todo := b.todo ++ [k] }
  | .erasing => b
  | .suspending => b
  | .suspended => b

/-- Judges the FULL sectors given for erase eligibility, in ascending order (R177, R178). -/
def Journal.judgeFull (j : Journal) (ks : List (Fin 32)) : Journal :=
  ks.foldl (fun j k =>
    if j.eligible k then
      { j.modSector k (fun x => { x with state := .erasePending }) with batch := j.batch.join k }
    else j) j

/-- The batch ends (R178): its state becomes NONE and its list empty; pending sectors outside it begin a new GATHERING. -/
def Journal.endBatch (j : Journal) : Journal :=
  let b : Batch := { state := .none, list := [], todo := [], current := none, suspends := j.batch.suspends }
  { j with batch := (allSectors.filter (fun k => j.stateOf k = .erasePending)).foldl Batch.join b }

/-- The next erase step begins, or the batch ends after its last sector (R178, R179). -/
def Journal.beginStep (j : Journal) : Journal :=
  match j.batch.todo with
  | k :: rest => { j with batch := { j.batch with state := .erasing, todo := rest, current := some k } }
  | [] => j.endBatch

/-! ## Programming (R168, R180) -/

/-- A program operation starts (R168). -/
def State.startProgram (s : State) (r : Record) (k : Fin 32) (slot : Nat) : State :=
  (s.modMeter Meter.holdHead).modJournal (fun j =>
    { j with program := some { record := r, seq := j.next, sector := k, slot := slot } })

/-- A program that is due starts, or waits, or asks to suspend the erase, as the batch state decides (R168, R180). -/
def State.kick (s : State) : State :=
  match s.programDue with
  | none => s
  | some (r, k, slot) =>
    match s.journal.batch.state with
    | .none => s.startProgram r k slot
    | .gathering => s.startProgram r k slot
    | .suspended => s.startProgram r k slot
    | .suspending => s
    | .erasing =>
      if s.journal.batch.current.isSome ∧ s.journal.batch.suspends < Config.suspendMax then
        s.modJournal (fun j =>
          { j with batch := { j.batch with state := .suspending, suspends := j.batch.suspends + 1 }, suspends := bump j.suspends })
      else s

/-- PROGRAM_START (R168): the journal starts programming the head record when R168 allows. -/
def execProgramStart (s : State) : Host.Outcome State Fault Refusal := s.live fun s => s.kick

/-- The first ERASED sector after `k` in ring order (R171). -/
def Journal.nextErased (j : Journal) (k : Fin 32) : Option (Fin 32) :=
  (allSectors.filter (fun i => k.val < i.val) ++ allSectors.filter (fun i => i.val ≤ k.val)).find?
    (fun i => j.stateOf i = .erased)

/-- The next write sector after `k` is taken, at slot 0, or there is none (R171). Without a write sector the rules give no write position; the model
holds 0 (log entry 69). -/
def Journal.advanceSector (j : Journal) (k : Fin 32) : Journal :=
  match j.nextErased k with
  | some i => { j.modSector i (fun x => { x with state := .inUse }) with writeSector := some i, writePos := 0 }
  | none => { j with writeSector := none, writePos := 0 }

/-- The write sector fills (R171): RETIRED with SECTOR_RETIRED raised when its mark is set, else FULL and judged; and the next write sector is
taken. -/
def State.fillSector (s : State) (k : Fin 32) : State :=
  if (s.journal.sectors[k]).retireOnFill then
    let s := s.modJournal (fun j => j.modSector k (fun x => { x with state := .retired, marker := true }))
    (s.raisePart .sectorRetired (.sectorRetired k .fill)).modJournal (fun j => j.advanceSector k)
  else
    s.modJournal (fun j => ((j.modSector k (fun x => { x with state := .full })).judgeFull [k]).advanceSector k)

/-- The write position moves to the next ERASED slot after the slot of a program, or the sector fills (R169 step 5, R170 step 4). -/
def State.advancePosition (s : State) (p : Program) : State :=
  match s.journal.erasedFrom p.sector (p.slot + 1) with
  | some i => s.modJournal (fun j => { j with writePos := i })
  | none => s.fillSector p.sector

/-- A MARK record has been verified (R176): the export mark becomes its mark and every FULL sector is judged. -/
def Journal.takeMark (j : Journal) (mark : Nat) : Journal := ({ j with exportMark := mark }).judgeFull allSectors

/-- The six steps of a verified program (R169). -/
def State.verified (s : State) (p : Program) : State :=
  let s := s.modJournal (fun j =>
    { j with array := storePut j.array (slotKey p.sector p.slot) { state := .written, contents := .whole p.seq p.record }
             highest := p.seq, next := j.next + 1, programmed := bump j.programmed })
  let closing := s.meter.headMark.isNone
  let s := s.modMeter Meter.dropHead
  let s := if closing then s.moveDue else s
  let s := if p.record.kind = .mark then s.modJournal (fun j => j.takeMark p.record.counts.up) else s
  let s := s.advancePosition p
  (s.modJournal (fun j => { j with program := none })).judgeCondition

/-- What follows the end of a program by its verify (R169, R178, R180): a suspension ends, a waiting erase step begins, and the next program
starts if it may. -/
def State.afterVerify (s : State) : State :=
  match s.journal.batch.state with
  | .suspended => (s.modJournal (fun j => { j with batch := { j.batch with state := .erasing } })).kick
  | .erasing => if s.journal.batch.current.isNone then (s.modJournal Journal.beginStep).kick else s.kick
  | .none => s.kick
  | .gathering => s.kick
  | .suspending => s.kick

/-- Whether a program is one into a slot of a sector. -/
def Program.into (p : Program) (sector : Fin 32) (slot : Nat) : Bool := decide (p.sector = sector) && decide (p.slot = slot)

/-- A verify that comes after the timeout of its program has been taken (R164, R168): the slot stays BAD, and holds a whole copy of the record. One
for a slot no such program has left BAD is discarded. -/
def Journal.lateVerify (j : Journal) (sector : Fin 32) (slot : Nat) : Journal :=
  match j.late.find? (fun p => p.into sector slot), storeGet j.array (slotKey sector slot) with
  | some p, some { state := .bad, contents := _ } =>
    { j with array := storePut j.array (slotKey sector slot) { state := .bad, contents := .whole p.seq p.record }
             late := j.late.filter (fun p => !p.into sector slot) }
  | _, _ => j

/-- PROGRAM_VERIFY (R169): the verify event of the program into a slot. One that comes for no program under way ends none (R168): it may be the late
verify of a program whose timeout has been taken. -/
def execProgramVerify (sector : Fin 32) (slot : Fin 512) (s : State) : Host.Outcome State Fault Refusal :=
  s.live fun s =>
    match s.journal.program with
    | some p =>
      if p.into sector slot.val then (s.verified p).afterVerify else s.modJournal (fun j => j.lateVerify sector slot.val)
    | none => s.modJournal (fun j => j.lateVerify sector slot.val)

/-- The steps of a program whose timeout is taken first (R170), but for the retry. -/
def State.timedOut (s : State) (p : Program) : State :=
  let left := remainOfProgram s.freeCount p
  let s := { s with freeCount := s.freeCount + 1 }
  let s := s.modJournal (fun j =>
    let j := j.modSector p.sector (fun x =>
      { x with bad := x.bad + 1, retireOnFill := x.retireOnFill || decide (8 ≤ x.bad + 1) })
    { j with array := storePut j.array (slotKey p.sector p.slot) { state := .bad, contents := left }
             late := j.late.filter (fun q => !q.into p.sector p.slot) ++ [p], failures := bump j.failures })
  let s := s.advancePosition p
  (s.modJournal (fun j => { j with program := none })).judgeCondition

/-- What follows a timed-out program (R170, R178, R180): the retry starts when a slot is available, within the same suspension when there is
one; a suspension without a slot for the retry ends. -/
def State.afterTimeout (s : State) : State :=
  match s.journal.batch.state with
  | .suspended =>
    let s' := s.kick
    if s'.journal.program.isSome then s'
    else s'.modJournal (fun j => { j with batch := { j.batch with state := .erasing } })
  | .erasing => if s.journal.batch.current.isNone then (s.modJournal Journal.beginStep).kick else s.kick
  | .none => s.kick
  | .gathering => s.kick
  | .suspending => s.kick

/-- PROGRAM_TIMEOUT (R170): the timeout event of the program into a slot; one that comes for no program under way is discarded (R168). -/
def execProgramTimeout (sector : Fin 32) (slot : Fin 512) (s : State) : Host.Outcome State Fault Refusal :=
  s.live fun s =>
    match s.journal.program with
    | some p => if p.into sector slot.val then (s.timedOut p).afterTimeout else s
    | none => s

/-! ## Erasing (R178 to R180) -/

/-- ACCEPT_WINDOW_END (R178): the suspend count becomes 0 and the first erase step begins, or waits for a running program. -/
def execAcceptWindowEnd (s : State) : Host.Outcome State Fault Refusal :=
  s.live fun s =>
    match s.journal.batch.state with
    | .gathering =>
      let s := s.modJournal (fun j => { j with batch := { j.batch with state := .erasing, suspends := 0 } })
      if s.journal.program.isSome then s else (s.modJournal Journal.beginStep).kick
    | _ => s

/-- What follows an erase step (R178 to R180). When a suspension had been asked for, the waiting program starts before the next erase step;
else the next step begins, or the batch ends, and a due program then asks for its suspension. -/
def State.afterErase (s : State) (suspending : Bool) : State :=
  let s := s.judgeCondition
  if suspending then
    let s := s.modJournal (fun j =>
      if j.batch.todo.isEmpty then j.endBatch else { j with batch := { j.batch with state := .erasing } })
    match s.programDue with
    | some (r, k, slot) => s.startProgram r k slot
    | none => if s.journal.batch.state = .erasing then (s.modJournal Journal.beginStep).kick else s
  else (s.modJournal Journal.beginStep).kick

/-- The sector of an erase step that completes becomes ERASED (R179), and a FULL journal becomes READY; with no write sector, the erased sector
becomes it at slot 0 (R172). -/
def Journal.erasedSector (j : Journal) (k : Fin 32) : Journal :=
  let j := { j with array := j.array.filter (fun p => keySector p.1 ≠ k.val), late := j.late.filter (fun p => decide (p.sector ≠ k)),
                    erased := bump j.erased,
                    batch := { j.batch with current := none } }
  let j := j.modSector k (fun _ => { state := .erased, bad := 0, retireOnFill := false, marker := false })
  match j.condition with
  | .full =>
    match j.writeSector with
    | none => { j.modSector k (fun x => { x with state := .inUse }) with condition := .ready, writeSector := some k, writePos := 0 }
    | some _ => { j with condition := .ready }
  | _ => j

/-- ERASE_COMPLETE (R179, R180): the erase-complete event of a sector; it may come first while a suspension is asked for. One that comes for
no erase step under way is discarded. -/
def execEraseComplete (sector : Fin 32) (s : State) : Host.Outcome State Fault Refusal :=
  s.live fun s =>
    if s.journal.batch.current = some sector then
      match s.journal.batch.state with
      | .erasing => (s.modJournal (fun j => j.erasedSector sector)).afterErase false
      | .suspending => (s.modJournal (fun j => j.erasedSector sector)).afterErase true
      | _ => s
    else s

/-- The sector of an erase step that times out becomes RETIRED and its slots are judged from their contents (R179). -/
def State.retireErase (s : State) (k : Fin 32) : State :=
  let draw := s.freeCount
  let s := { s with freeCount := s.freeCount + 1 }
  let s := s.modJournal (fun j =>
    let seen := j.validCells.map (fun v => v.2.1)
    let left := leaveErase draw k j.array
    let judged := judgeCells seen (left.filter (fun p => keySector p.1 = k.val))
    let array := judged.foldl (fun a p => storePut a p.1 p.2) (left.filter (fun p => keySector p.1 ≠ k.val))
    let j := j.modSector k (fun x => { x with state := .retired, marker := true, bad := 0 })
    { j with array := array, late := j.late.filter (fun p => decide (p.sector ≠ k)), eraseFails := bump j.eraseFails, batch := { j.batch with current := none } })
  s.raisePart .sectorRetired (.sectorRetired k .erase)

/-- ERASE_TIMEOUT (R179): the erase timeout of a sector; one that comes for no erase step whose erasing time runs is discarded. -/
def execEraseTimeout (sector : Fin 32) (s : State) : Host.Outcome State Fault Refusal :=
  s.live fun s =>
    if s.journal.batch.current = some sector ∧ s.journal.batch.state = .erasing then
      (s.retireErase sector).afterErase false
    else s

/-- SUSPEND_EVENT (R180): the suspension takes hold and the waiting program starts; one that finds nothing to suspend is discarded. -/
def execSuspendEvent (s : State) : Host.Outcome State Fault Refusal :=
  s.live fun s =>
    match s.journal.batch.state with
    | .suspending =>
      let s' := (s.modJournal (fun j => { j with batch := { j.batch with state := .suspended } })).kick
      if s'.journal.program.isSome then s'
      else s'.modJournal (fun j => { j with batch := { j.batch with state := .erasing } })
    | _ => s

/-! ## The start-up scan (R182) -/

/-- The valid record of highest sequence number among those for which `p` holds, with its key. -/
def newestCell (p : Record → Bool) : List (Nat × Nat × Record) → Option (Nat × Nat × Record)
  | [] => none
  | v :: rest =>
    match newestCell p rest with
    | some w => if p v.2.2 && decide (w.2.1 < v.2.1) then some v else some w
    | none => if p v.2.2 then some v else none

/-- The write sector and position of step 5 of R182. A RETIRED sector is never written again (R165). -/
def Journal.scanWrite (j : Journal) : Option (Fin 32 × Nat) :=
  match newestCell (fun _ => true) j.validCells with
  | some (key, _, _) =>
    (allSectors.find? (fun k => k.val = keySector key)).bind (fun k =>
      if j.stateOf k = .retired then none
      else (j.erasedFrom k (key % Config.slotsPerSector + 1)).map (fun i => (k, i)))
  | none => (allSectors.find? (fun k => j.allErased k && decide (j.stateOf k ≠ .retired))).map (fun k => (k, 0))

/-- A sector's own items after the scan (R182 steps 5 to 7). -/
def Journal.scanSector (j : Journal) (write : Option (Fin 32 × Nat)) (k : Fin 32) : Sector → Sector := fun x =>
  let torn := ((j.cellsOf k).filter (fun p => p.2.state = .torn)).length
  let st : SectorState :=
    if write.any (fun w => w.1 = k) then .inUse
    else if x.state = .retired then .retired
    else if j.allErased k then .erased
    else .full
  { x with state := st, bad := torn, retireOnFill := decide (8 ≤ torn) }

/-- The journal as the start-up scan rebuilds it, steps 1 to 9 and 11 of R182. -/
def Journal.scanned (j : Journal) : Journal :=
  let j : Journal := { j with array := judgeCells [] j.array }
  let j : Journal := { j with sectors := Vector.ofFn (fun k : Fin 32 =>
    { j.sectors[k] with state := if (j.sectors[k]).marker then .retired else .erased }) }
  let newest : Option (Nat × Nat × Record) := newestCell (fun _ => true) j.validCells
  let highest := (newest.map (fun v => v.2.1)).getD 0
  let mark : Nat := ((newestCell (fun r => decide (r.kind = .mark)) j.validCells).map (fun v => v.2.2.counts.up)).getD 0
  let write : Option (Fin 32 × Nat) := j.scanWrite
  let j : Journal := { j with
    highest := highest, next := highest + 1, exportMark := mark, requested := mark
    writeSector := write.map (·.1), writePos := (write.map (·.2)).getD 0
    sectors := Vector.ofFn (fun k : Fin 32 => j.scanSector write k j.sectors[k]) }
  let j : Journal :=
    match write, newest with
    | none, some (key, _, _) =>
      match allSectors.find? (fun k => k.val = keySector key) with
      | some k => j.advanceSector k
      | none => j
    | _, _ => j
  let j := j.judgeFull allSectors
  { j with condition := ({ j with condition := .ready }).judgedCondition false }

/-- SCAN_COMPLETE (R182, R191): the journal state is rebuilt, both read cursors become the export mark plus 1, PART_READY is placed at the head of
the notices and JOURNAL_FULL, when the condition is FULL or STOPPED, second. -/
def execScanComplete (s : State) : Host.Outcome State Fault Refusal :=
  s.live fun s =>
    match s.journal.condition with
    | .scanning =>
      let j := s.journal.scanned
      let cause : Option FullCause :=
        match j.condition with
        | .full => some .noSector
        | .stopped => some .stopped
        | .ready => none
        | .scanning => none
      let ready : Notice :=
        { kind := .partReady, tree := none, line := .none, count := 1, details := .partReady j.condition j.highest j.exportMark }
      let full : List Notice :=
        match cause with
        | some c => [{ kind := .journalFull, tree := none, line := .none, count := 1, details := .journalFull c }]
        | none => []
      let setCursor := fun (k : LinkState) => { k with journalCursor := j.exportMark + 1 }
      ({ s with
          journal := { j with cause := cause }
          links := { s.links with notices := ready :: (full ++ s.links.notices), controller := setCursor s.links.controller,
                                  craft := setCursor s.links.craft } }).pump
    | _ => s

/-! ## Journal requests (R173 to R175, R183) -/

/-- The valid record of lowest sequence number at or above a cursor (R173, R174). -/
def lowestFrom (cursor : Nat) : List (Nat × Nat × Record) → Option (Nat × Record)
  | [] => none
  | v :: rest =>
    match lowestFrom cursor rest with
    | some w => if cursor ≤ v.2.1 ∧ v.2.1 < w.1 then some v.2 else some w
    | none => if cursor ≤ v.2.1 then some v.2 else none

/-- Up to `n` valid records at or above a cursor, ascending (R173). -/
def readFrom (cells : List (Nat × Nat × Record)) : Nat → Nat → List (Nat × Record)
  | 0, _ => []
  | n + 1, cursor =>
    match lowestFrom cursor cells with
    | some v => v :: readFrom cells n (v.1 + 1)
    | none => []

/-- How many records a READ_JOURNAL reply carries on a link (R173). -/
def journalLimit : Link → Nat
  | .controller => 8
  | .craft => 2

/-- Runs `f` unless the journal is SCANNING, in which case the request is answered BUSY (R173 to R175, R181, R183). -/
def unlessScanning (f : State → State × Answer) (s : State) : State × Answer :=
  if s.journal.condition = .scanning then refused s .busy else f s

/-- The owner's part of READ_JOURNAL (R173). -/
def readJournalOwner (k : Link) : State → State × Answer :=
  unlessScanning fun s =>
    let cursor := (s.link k).journalCursor
    let rs := readFrom s.journal.validCells (journalLimit k) cursor
    let cursor' := ((rs.getLast?).map (fun r => r.1 + 1)).getD cursor
    (s.modLink k (fun x => { x with journalCursor := cursor' }), doneWith (.journal rs cursor'))

/-- READ_JOURNAL (R173). -/
def execReadJournal (h : Head) (s : State) : Host.Outcome State Fault Refusal :=
  s.live fun s => s.request h .readJournal (readJournalOwner h.link)

/-- The owner's part of SEEK_JOURNAL (R174). -/
def seekJournalOwner (k : Link) (seq : Nat) : State → State × Answer :=
  unlessScanning fun s =>
    let at_ := lowestFrom (clampTo 1 4294967295 seq) s.journal.validCells
    let cursor := (at_.map (·.1)).getD (s.journal.highest + 1)
    (s.modLink k (fun x => { x with journalCursor := cursor }),
     settled (firstMarked [(1, outOfRange 1 4294967295 (some seq))]) (.seek cursor at_.isSome))

/-- SEEK_JOURNAL (R174). -/
def execSeekJournal (h : Head) (seq : Nat) (s : State) : Host.Outcome State Fault Refusal :=
  s.live fun s => s.request h .seekJournal (seekJournalOwner h.link seq)

/-- The MARK record made by EXPORT_DONE (R175). -/
def markRecord (mark : Nat) (clock : Option Clock) : Record :=
  { tree := 0, line := 0, kind := .mark, band := 0, clockUnset := clock.isNone, merged := false, throttled := false,
    moved := false, serial := 0, start := stampOf clock, stop := stampOf clock, counts := { up := mark } }

/-- The owner's part of EXPORT_DONE (R175). -/
def exportDoneOwner (seq : Nat) : State → State × Answer :=
  unlessScanning fun s =>
    let value := min seq s.journal.highest
    let field := firstMarked [(1, decide (s.journal.highest < seq))]
    if value ≤ s.journal.requested then (s, settled field (.mark s.journal.requested))
    else
      ((s.modJournal (fun j => { j with requested := value })).modMeter (fun m => { m with mark := some (markRecord value m.clock) }),
       settled field (.mark value))

/-- EXPORT_DONE (R175). -/
def execExportDone (h : Head) (seq : Nat) (s : State) : Host.Outcome State Fault Refusal :=
  s.live fun s => s.request h .exportDone (exportDoneOwner seq)

/-- The lowest of some numbers. -/
def lowestOf : List Nat → Option Nat
  | [] => none
  | n :: rest =>
    match lowestOf rest with
    | some m => some (min n m)
    | none => some n

/-- The highest of some numbers. -/
def highestOf : List Nat → Option Nat
  | [] => none
  | n :: rest =>
    match highestOf rest with
    | some m => some (max n m)
    | none => some n

/-- One sector as READ_JOURNAL_STATE gives it (R183). -/
def Journal.sectorView (j : Journal) (k : Fin 32) : SectorView :=
  let seqs := j.validSeqs k
  let x := j.sectors[k]
  { state := x.state, valid := seqs.length, lowest := lowestOf seqs, highest := highestOf seqs, bad := x.bad,
    retireOnFill := x.retireOnFill }

/-- The journal as READ_JOURNAL_STATE gives it (R183); the reserve exists while no sector is ERASED (R172). Where there is no write sector either, the
model gives a reserve of 0 slots (log entry 68); ERASED slots before the write position are not of it (log entry 73). -/
def Journal.view (j : Journal) (cursor : Nat) : JournalView :=
  { condition := j.condition, cause := j.cause, writeSector := j.writeSector, writePos := j.writePos,
    reserve := if j.someSector .erased then none else some (min 8 j.erasedLeft), next := j.next, highest := j.highest,
    exportMark := j.exportMark, requested := j.requested, program := j.program.map (fun p => (p.seq, p.sector, p.slot)),
    batch := j.batch.state, list := j.batch.list, current := j.batch.current, suspendCount := j.batch.suspends,
    sectors := allSectors.map j.sectorView, cursor := cursor, programmed := j.programmed, failures := j.failures,
    erased := j.erased, eraseFails := j.eraseFails, suspends := j.suspends }

/-- The owner's part of READ_JOURNAL_STATE (R183). -/
def readJournalStateOwner (k : Link) : State → State × Answer :=
  unlessScanning fun s => (s, doneWith (.journalState (s.journal.view (s.link k).journalCursor)))

/-- READ_JOURNAL_STATE (R183). -/
def execReadJournalState (h : Head) (s : State) : Host.Outcome State Fault Refusal :=
  s.live fun s => s.request h .readJournalState (readJournalStateOwner h.link)

end Sys2Proof.Machine
end

