-- ==== Sys2Proof/Machine/Links.lean ====
section
/-! DEFINITION. The management links' own requests and events (R184 to R187, R189, R192, R193). -/

namespace Sys2Proof.Machine

/-! ## IDENTIFY, RESTART_PART and the permission map (R189, R192, R193) -/

/-- The permission level of a link (R184, R185). -/
def levelOf : Link → Nat
  | .controller => 0
  | .craft => 1

/-- The counts of a link that IDENTIFY reports (R192). -/
def LinkState.counts (k : LinkState) : LinkCounts :=
  { busyAnswers := k.busyAnswers, busyDiscards := k.busyDiscards, denied := k.denied }

/-- The owner's part of IDENTIFY (R192). -/
def identifyOwner (link : Link) (s : State) : State × Answer :=
  (s, doneWith (.identify
    { frame := s.time.frame, seconds := s.time.seconds, link := link, level := levelOf link,
      controller := s.links.controller.counts, craft := s.links.craft.counts, discarded := s.links.discarded }))

/-- IDENTIFY (R192). -/
def execIdentify (h : Head) (s : State) : Host.Outcome State Fault Refusal :=
  s.live fun s => s.request h .identify (identifyOwner h.link)

/-- The owner's part of RESTART_PART (R193): the part goes on as before until the reply has been sent. -/
def restartPartOwner (s : State) : State × Answer := (s, doneWith .none)

/-- RESTART_PART (R193). -/
def execRestartPart (h : Head) (s : State) : Host.Outcome State Fault Refusal :=
  s.live fun s => s.request h .restartPart restartPartOwner

/-- The kinds level 1 may use with the entry of one kind set, in the order of their codes (R189). -/
def allowKind (allowed : List ReqKind) (k : ReqKind) (allow : Bool) : List ReqKind :=
  ReqKind.all.filter (fun x => if x = k then allow else x ∈ allowed)

/-- The owner's part of SET_PERMISSION (R189). -/
def setPermissionOwner (kind : Nat) (allow : Bool) (s : State) : State × Answer :=
  match ReqKind.ofCode kind with
  | none => (s, refuse .badValue)
  | some k =>
    if k.fixed then (s, refuse .conflict)
    else ({ s with links := { s.links with allowed := allowKind s.links.allowed k allow } }, doneWith .none)

/-- SET_PERMISSION (R189). -/
def execSetPermission (h : Head) (kind : Nat) (allow : Bool) (s : State) : Host.Outcome State Fault Refusal :=
  s.live fun s => s.request h .setPermission (setPermissionOwner kind allow)

/-- The owner's part of READ_PERMISSION (R189): for each kind, whether level 1 may use it and whether it is fixed at level 0. -/
def readPermissionOwner (s : State) : State × Answer :=
  (s, doneWith (.permissions (ReqKind.all.map (fun k => (k, decide (k ∈ s.links.allowed), k.fixed)))))

/-- READ_PERMISSION (R189). -/
def execReadPermission (h : Head) (s : State) : Host.Outcome State Fault Refusal :=
  s.live fun s => s.request h .readPermission readPermissionOwner

/-! ## Requests that cannot be read or taken (R186, R187) -/

/-- UNKNOWN_REQUEST (R187). -/
def execUnknownRequest (h : Head) (kind : Byte) (s : State) : Host.Outcome State Fault Refusal :=
  s.live fun s => s.unreadable h kind

/-- BUSY_REPLY (R186): a request of any kind arrives while another is in hand. It is answered BUSY, or discarded while the reply list is full. -/
def execBusyReply (h : Head) (kind : Byte) (s : State) : Host.Outcome State Fault Refusal :=
  s.live fun s => if (s.link h.link).inHand.isSome then s.unreadable h kind else s

/-! ## Frames discarded (R184) -/

/-- The two length bytes of a frame as a number (Table 1-8). -/
def lengthOf (b1 b2 : Byte) : Nat := 256 * b1.toNat + b2.toNat

/-- Whether a length lies in 3..1,023 (R184). -/
def lengthGood (n : Nat) : Bool := decide (3 ≤ n) && decide (n ≤ 1023)

/-- One byte while hunting: A5h starts a frame, any other is discarded (R184). -/
def huntByte (b : Byte) : Option (List Byte) := if b = 0xA5#8 then some [] else none

/-- The receiver after a frame whose two length bytes were bad: it hunts again from the byte after the marker (R184). -/
def rehunt (b1 b2 : Byte) : Option (List Byte) :=
  match huntByte b1 with
  | some _ => some [b2]
  | none => huntByte b2

/-- A frame is discarded: it is counted, and the receiver goes on with what `rx` says (R184). -/
def State.discardFrame (s : State) (rx : Option (List Byte)) : State :=
  { s with links := { s.links with frameRx := rx, discarded := bump s.links.discarded } }

/-- FRAME_DISCARDED (R184): the byte that ends a frame as discarded. Two bytes that give a good length end no frame. -/
def execFrameDiscarded (why : DiscardCause) (s : State) : Host.Outcome State Fault Refusal :=
  s.live fun s =>
    match why with
    | .badLength b1 b2 => if lengthGood (lengthOf b1 b2) then s else s.discardFrame (rehunt b1 b2)
    | .badCheck => s.discardFrame none

/-- BYTE_GAP_TIMEOUT (R184): more than 1 ms has passed between two bytes of one frame. While the receiver hunts there is no frame. -/
def execByteGapTimeout (s : State) : Host.Outcome State Fault Refusal :=
  s.live fun s => if s.links.frameRx.isSome then s.discardFrame none else s

/-! ## The transmit side (R186, R193) -/

/-- Whether a frame just sent is the DONE reply of a RESTART_PART, after which the part reset begins (R193). -/
def TxItem.restarts : TxItem → Bool
  | .reply r => r.own && decide (r.kind = ReqKind.restartPart.byte) && decide (r.code = .done)
  | .notice _ => false

/-- Whether a frame or line just sent is the reply of the request in hand (R186). -/
def TxItem.isOwn : TxItem → Bool
  | .reply r => r.own
  | .notice _ => false

/-- TRANSMIT_COMPLETE (R186): a link's transmit side finishes a frame or line; the request in hand is done when its reply has been sent; the side
takes the next reply or notice. -/
def execTransmitComplete (link : Link) (s : State) : Host.Outcome State Fault Refusal :=
  s.live fun s =>
    match (s.link link).sending with
    | none => s
    | some x =>
      let s := s.modLink link (fun k => { k with sending := none, inHand := if x.isOwn then none else k.inHand })
      ({ s with resetDue := s.resetDue || (decide (link = Link.controller) && x.restarts) }).pump

end Sys2Proof.Machine
end

