-- ==== Sys2Proof/Machine/Engine.lean ====
section
/-! DEFINITION. The enrolment engine (03_enrolment_and_ranging.md): discovery windows, hellos, enrolment messages, ranging and verify results,
retries, hold expiry, dismissal, drift corrections, and what a search start does to enrolment. -/

namespace Sys2Proof.Machine

/-! ## The discovery schedule (R42 to R44) -/

/-- The engine's part of a frame start (R42): the schedule counter counts, unless it stands at DI or above. -/
def TreeState.countSchedule (T : TreeState) : TreeState :=
  if T.settings.di ≤ T.engine.counter then T else { T with engine := { T.engine with counter := T.engine.counter + 1 } }

/-- A skipped window (R43): the counter becomes 0, the record absent, the skipped count rises; the queue's CALL is removed and a quiet window
the planner has not begun is cancelled (R77). -/
def State.skipWindow (s : State) (t : TreeId) : State :=
  let s := s.withdraw t LineMsg.isCall
  s.modTree t (fun T =>
    { T with engine := { T.engine with counter := 0, window := none, refusedCall := none, skipped := bump T.engine.skipped }
             planner := { T.planner with quiet := none } })

/-- The window length Q = 625 × D + 3,128 SU (R11). -/
def Window.length (w : Window) : Nat := 625 * w.reach + 3128

/-- The CALL of a window (R11, R42). -/
def Window.call (w : Window) : LineMsg := .call (625 * w.reach) w.length w.target

/-- What an accepted CALL does (R42): the counter becomes 0, the window SCHEDULED, the opened count rises, and the planner is told of the quiet
window. -/
def State.scheduleWindow (s : State) (t : TreeId) (w : Window) : State :=
  s.modTree t (fun T =>
    { T with engine := { T.engine with counter := 0, window := some w, refusedCall := none, opened := bump T.engine.opened }
             planner := { T.planner with quiet := some (w.target, w.length) } })

/-- The five conditions of R42, with no refused CALL waiting for its second offer (R43). -/
def TreeState.windowDue (T : TreeState) : Bool :=
  decide (T.settings.di ≤ T.engine.counter) && T.settings.discovery && !T.search.running &&
    decide (T.engine.busy.length < 4) && T.engine.window.isNone && T.engine.refusedCall.isNone

/-- DISCOVERY_WINDOW_OPEN (R42): after frame start n, with every condition met, a CALL with target n + 2 is offered. -/
def execDiscoveryWindowOpen (t : TreeId) (s : State) : Host.Outcome State Fault Refusal :=
  s.live fun s =>
    match s.lastStarted t with
    | some n =>
      if (s.tree t).windowDue then
        let c := (s.tree t).settings
        let w : Window := { target := n + 2, reach := c.reach, ert := c.ert, opened := false }
        let (s', ok) := s.offer t w.call
        if ok then s'.scheduleWindow t w else s'.modEngine t (fun e => { e with refusedCall := some w })
      else s
    | none => s

/-- CALL_REOFFER (R43): at frame start n + 1 the refused CALL is offered again with the same target n + 2; refused again, or once a search runs,
discovery is off or the target frame has come (log entry 9), the window is skipped.
A window scheduled now records the D and the ERT of the first offer, also where SET_TREE has changed the ERT in between (log entry 71). -/
def execCallReoffer (t : TreeId) (s : State) : Host.Outcome State Fault Refusal :=
  s.live fun s =>
    match (s.tree t).engine.refusedCall, s.lastStarted t with
    | some w, some n =>
      if (s.tree t).search.running || !(s.tree t).settings.discovery || decide (w.target ≤ n) then s.skipWindow t
      else if n + 1 = w.target then
        let (s', ok) := s.offer t w.call
        if ok then s'.scheduleWindow t w else s'.skipWindow t
      else s
    | _, _ => s

/-- The CALL of the window has been sent in frame n: the record becomes OPEN (R42). -/
def Engine.callSent (e : Engine) : Engine := { e with window := e.window.map (fun w => { w with opened := true }) }

/-- QUIET_WINDOW_END (R44): receive time passes offset Q of an OPEN window and the record becomes absent. -/
def execQuietWindowEnd (t : TreeId) (s : State) : Host.Outcome State Fault Refusal :=
  s.live fun s =>
    match (s.tree t).engine.window with
    | some w => if w.opened then s.modEngine t (fun e => { e with window := none }) else s
    | none => s

/-! ## Enrolment messages (R49, R52, R54) -/

/-- Offers what a context waits for: in ASSIGN_WAIT its ASSIGN and, once that is accepted, its provisional DELAY; in DELAY_WAIT the provisional
DELAY; in FINAL_WAIT the final DELAY, which is the slot's delay (R49, R52, R54). -/
def State.offerEnrol (s : State) (t : TreeId) (l : Line) : State :=
  let offerDelay := fun (s : State) (value : Nat) (use : DelayUse) =>
    let (s', ok) := s.offer t (.delay l value use)
    if ok then s'.modEngine t (fun e => e.modContext l (fun c => { c with accepted := true })) else s'
  match (s.tree t).engine.contextOf l with
  | none => s
  | some c =>
    match c.phase with
    | .assignWait =>
      let (s', ok) := s.offer t (.assign c.serial l)
      if ok then
        offerDelay (s'.modEngine t (fun e => e.modContext l (fun c => { c with phase := .delayWait, accepted := false })))
          c.provisional .provisional
      else s'
    | .delayWait => if c.accepted then s else offerDelay s c.provisional .provisional
    | .finalWait => if c.accepted then s else offerDelay s (s.slot t l).eqd .final
    | .rangeWait => s
    | .verifyWait => s

/-- ENROL_MESSAGE_RETRY (R49, R52, R54): at a frame start the messages the queue refused are offered again. -/
def execEnrolMessageRetry (t : TreeId) (l : Line) (s : State) : Host.Outcome State Fault Refusal :=
  s.live fun s => s.offerEnrol t l

/-- The context of a line awaits the ranging grant it now asks the planner for (R52, R53, R57). -/
def State.askRanging (s : State) (t : TreeId) (l : Line) : State :=
  s.modTree t (fun T =>
    { T with engine := T.engine.modContext l (fun c => { c with phase := .rangeWait, accepted := true, frame := none })
             planner := { T.planner with rangingList := joinLine T.planner.rangingList l } })

/-- The provisional DELAY of a context in DELAY_WAIT has been sent (R52). -/
def State.provisionalSent (s : State) (t : TreeId) (l : Line) : State :=
  match (s.tree t).engine.contextOf l with
  | none => s
  | some c =>
    match c.phase with
    | .delayWait =>
      let s := s.modSlot t l (fun x => { x with eqd := c.provisional })
      let s := if (s.slot t l).state = .assigned then s.enterRanging t l else s
      s.askRanging t l
    | _ => s

/-- The final DELAY of a context in FINAL_WAIT has been sent (R54): VERIFY_WAIT, and the planner is asked for a verify grant. -/
def State.finalSent (s : State) (t : TreeId) (l : Line) : State :=
  match (s.tree t).engine.contextOf l with
  | none => s
  | some c =>
    match c.phase with
    | .finalWait =>
      s.modTree t (fun T =>
        { T with engine := T.engine.modContext l (fun c => { c with phase := .verifyWait, accepted := true, frame := none })
                 planner := { T.planner with verifyList := joinLine T.planner.verifyList l } })
    | _ => s

/-- The drift DELAY of a line has been sent in frame n (R58, R61). -/
def Slot.driftSent (x : Slot) (n : Nat) : Slot :=
  match x.driftDelay with
  | .unsent => { x with driftDelay := .sent n }
  | .none => x
  | .sent _ => x

/-- The planner tells the engine the frame of a ranging or verify grant it has placed (R52, R54, R78): a context in the phase that awaits that
grant records it. -/
def Engine.toldFrame (e : Engine) (l : Line) (phase : Phase) (n : Nat) : Engine :=
  e.modContext l (fun c => if c.phase = phase then { c with frame := some n } else c)

/-! ## Hellos (R45 to R51) -/

/-- What a hello reports (R12, R15). -/
structure HelloReport where
  good   : Bool
  serial : Serial
  delay  : Nat
  prior  : Option Line
  deriving DecidableEq, Repr, Inhabited

/-- The 20 bytes of a hello (R15). A prior-line byte of 128 or more is none (log entry 10). -/
def readHello (bytes : List Byte) : HelloReport :=
  { good := goodBurstCheck bytes, serial := BitVec.ofNat 48 (natOf (bytes.take 6)), delay := natOf ((bytes.drop 6).take 2),
    prior := oneLine (natOf ((bytes.drop 8).take 1)) }

/-- The coarse round trip ERT + a − 625 × D − d in SU (R45). -/
def coarseRtt (w : Window) (a d : Nat) : Int := (w.ert : Int) + a - 625 * w.reach - d

/-- The context of an enrolment that a hello begins: provisional delay 40 × (ERT − coarse RTT), no failed attempt, ASSIGN_WAIT (R49). -/
def helloContext (w : Window) (h : HelloReport) (coarse : Nat) (l : Line) (kind : ContextKind) : Context :=
  { serial := h.serial, line := l, kind := kind, coarse := some coarse, provisional := 40 * (w.ert - coarse), prior := h.prior,
    attempts := 0, phase := .assignWait, accepted := false, frame := none }

/-- One hello more in a count of the engine. -/
def State.countDeferred (s : State) (t : TreeId) : State := s.modEngine t (fun e => { e with deferred := bump e.deferred })

/-- A hello counted as a collision (R45). -/
def State.countCollision (s : State) (t : TreeId) : State := s.modEngine t (fun e => { e with collisions := bump e.collisions })

/-- Runs `f` with the slot and the context position an enrolment into a new slot needs; without a slot TREE_FULL is raised, without a context the
hello is deferred (R49 steps 1 and 2, R51). -/
def State.withPlace (s : State) (t : TreeId) (x : Serial) (f : Line → Fin 4 → State) : State :=
  match (s.tree t).availableSlot with
  | none => s.raiseTree .treeFull t (.serial x)
  | some l =>
    match (s.tree t).engine.freeContext with
    | none => s.countDeferred t
    | some i => f l i

/-- A new enrolment (R49): slot, context and claim, in that order, then ASSIGN and the provisional DELAY. -/
def State.enrolNew (s : State) (t : TreeId) (w : Window) (h : HelloReport) (coarse : Nat) : State :=
  s.withPlace t h.serial fun l i =>
    match s.claim h.serial t l with
    | none => s.raiseTree .directoryFull t (.serial h.serial)
    | some (s, p) =>
      ((s.takeSlot t l p).modEngine t (fun e => e.setContext i (some (helloContext w h coarse l .new)))).offerEnrol t l

/-- A hello of a home whose slot is LOST, ACTIVE or COOLDOWN on this tree (R50). -/
def State.enrolReturn (s : State) (t : TreeId) (l : Line) (w : Window) (h : HelloReport) (coarse : Nat) : State :=
  match (s.tree t).engine.freeContext with
  | none => s.countDeferred t
  | some i =>
    ((s.enterRanging t l).modEngine t (fun e => e.setContext i (some (helloContext w h coarse l .returning)))).offerEnrol t l

/-- A hello of a home whose enrolment is in progress: it is restarted in its context, of the same kind, and every unsent ASSIGN and DELAY of the
line is removed, a drift DELAY among them (R50). Its line stays on the ranging and verify lists where it stood: the rules take it off for a slot that
has left RANGING and for quarantine alone (R78, R120), and what becomes of it here is the model's choice (log entry 55). -/
def State.enrolRestart (s : State) (t : TreeId) (l : Line) (w : Window) (h : HelloReport) (coarse : Nat) : State :=
  let s := (s.withdraw t (LineMsg.enrols l)).modSlot t l (fun x => { x with driftDelay := .none })
  (s.modEngine t (fun e => e.modContext l (fun c => helloContext w h coarse l c.kind))).offerEnrol t l

/-- A hello whose serial is PRESENT on this tree (R50). -/
def State.helloHere (s : State) (t : TreeId) (l : Line) (w : Window) (h : HelloReport) (coarse : Nat) : State :=
  match (s.slot t l).state with
  | .lost => s.enrolReturn t l w h coarse
  | .active => s.enrolReturn t l w h coarse
  | .cooldown => s.enrolReturn t l w h coarse
  | .assigned => s.enrolRestart t l w h coarse
  | .ranging => s.enrolRestart t l w h coarse
  | .quarantined => s
  | .free => s

/-- Whether the hearing tree would enrol a serial afresh (R51). -/
def wouldEnrol (mode : Mode) (t : TreeId) (o : Origin) : Bool :=
  match mode, o with
  | .opened, _ => true
  | .listed, .listed none => true
  | .listed, .listed (some b) => decide (b = t)
  | .listed, .opened => false

/-- A move to this tree (R51): the old slot is freed with the MOVED flag, the entry relinked, and a new enrolment begun. -/
def State.moveHere (s : State) (t u : TreeId) (old : Line) (p : Nat) (w : Window) (h : HelloReport) (coarse : Nat) : State :=
  s.withPlace t h.serial fun l i =>
    let s := (s.freeSlot u old .moved).relink p t l
    ((s.takeSlot t l p).modEngine t (fun e => e.setContext i (some (helloContext w h coarse l .new)))).offerEnrol t l

/-- A hello whose serial is PRESENT on another tree (R51). -/
def State.helloElsewhere (s : State) (t u : TreeId) (old : Line) (o : Origin) (pin : Bool) (w : Window) (h : HelloReport)
    (coarse : Nat) : State :=
  let elsewhere := s.raiseTree .serialElsewhere t (.elsewhere h.serial u)
  if (s.slot u old).state = .lost ∧ pin = false ∧ wouldEnrol (s.tree t).settings.mode t o then
    match (s.slot u old).link with
    | some p => s.moveHere t u old p w h coarse
    | none => elsewhere
  else elsewhere

/-- A refused hello of a serial whose entry is REFUSED counts into an unsent SERIAL_REFUSED of the tree (R48). -/
def State.countRefused (s : State) (t : TreeId) (x : Serial) : State :=
  if s.links.notices.any (fun n => n.hasKey .serialRefused (some t) .none) then s.raiseTree .serialRefused t (.serial x) else s

/-- The outcomes of the directory's answer (R47 to R51). -/
def State.actOnHello (s : State) (t : TreeId) (w : Window) (h : HelloReport) (coarse : Nat) : State :=
  let (s, answer) := s.lookupHello t h.serial
  let refuse := s.raiseTree .serialRefused t (.serial h.serial)
  match answer with
  | .barred due => if due then refuse else s
  | .refused => s.countRefused t h.serial
  | .none =>
    match (s.tree t).settings.mode with
    | .listed => refuse
    | .opened => s.enrolNew t w h coarse
  | .expected b => if b = none ∨ b = some t then s.enrolNew t w h coarse else refuse
  | .present u l o pin => if u = t then s.helloHere t l w h coarse else s.helloElsewhere t u l o pin w h coarse

/-- The line a serial holds on tree `t`, read from its entry (R46). -/
def State.lineOn (s : State) (t : TreeId) (x : Serial) : KeyLine :=
  match dirLookup s.directory x with
  | some (_, { serial := _, body := .present u l _ _ _ }) => if u = t then .line l else .none
  | _ => .none

/-- The slot of an expired hold is freed and HOME_GONE raised (R60). -/
def State.holdGone (s : State) (t : TreeId) (l : Line) : State :=
  let x := (s.serialOf t l).getD 0
  (s.freeSlot t l .left).raiseHome .homeGone t l (.serial x)

/-- A hold expiry is taken (R60): a DISMISS still unoffered is offered first, and while the queue refuses it the expiry waits. -/
def State.takeExpiry (s : State) (t : TreeId) (l : Line) : State :=
  if l ∈ (s.tree t).engine.dismissHeld then
    let (s', ok) := s.offer t (.dismiss l)
    if ok then s'.holdGone t l else s'.modSlot t l (fun x => { x with expiry := .waits })
  else s.holdGone t l

/-- A hold expiry of a serial's home that the directory has told and the engine has not taken yet is taken, because the ageing that told it came
first (R33; log entry 56). -/
def State.settleExpiry (s : State) (x : Serial) : State :=
  match dirLookup s.directory x with
  | some (_, { serial := _, body := .present u l _ _ _ }) =>
    if (s.slot u l).state = .lost ∧ (s.slot u l).expiry = .told then s.takeExpiry u l else s
  | _ => s

/-- A hello found in an OPEN window is taken (R45, R46). One that fails its check, reports a d above 3,000 or gives a negative coarse round trip
counts as a collision and no more, a search running or not: the rule gives the two cases no precedence, and this one is the model's (log entry 54).
-/
def State.takeHello (s : State) (t : TreeId) (w : Window) (a : Nat) (h : HelloReport) : State :=
  let coarse := coarseRtt w a h.delay
  if h.good = false ∨ 3000 < h.delay ∨ coarse < 0 then s.countCollision t
  else if (s.tree t).search.running then s.countDeferred t
  else
    let s := (s.settleExpiry h.serial).modEngine t (fun e => { e with taken := bump e.taken })
    if (w.ert : Int) < coarse then s.raise .outOfReach (some t) (s.lineOn t h.serial) (.serial h.serial)
    else s.actOnHello t w h coarse.toNat

/-- HELLO (R44, R45): a burst of hello form that begins at `offset` and ends within an OPEN window. One that does not is neither a hello nor dark
light. -/
def execHello (t : TreeId) (offset : Nat) (bytes : List Byte) (s : State) : Host.Outcome State Fault Refusal :=
  s.live fun s =>
    match (s.tree t).engine.window with
    | some w =>
      if w.opened ∧ offset + 128 ≤ w.length ∧ bytes.length = 20 then s.takeHello t w offset (readHello bytes) else s
    | none => s

/-! ## Ranging and verify results (R53 to R57) -/

/-- An enrolment fails (R56), through three failed attempts or through OUT_OF_REACH at the final delay. -/
def State.failEnrol (s : State) (t : TreeId) (l : Line) (c : Context) (byAttempts : Bool) : State :=
  let tell := fun (s : State) => if byAttempts then s.raiseHome .enrolFailed t l (.serial c.serial) else s
  match c.kind with
  | .new => (tell (s.freeSlot t l .left)).offerDismiss t l
  | .returning => (tell (s.modEngine t (fun e => e.releaseContext l))).enterLost t l

/-- The engine goes on from a failed attempt with the failed-attempt count given: a new ranging grant is asked for. `base` is the provisional delay of
the next attempt. -/
def State.rangeAgain (s : State) (t : TreeId) (l : Line) (attempts base : Nat) : State :=
  (s.modEngine t (fun e => e.modContext l (fun c => { c with attempts := attempts, provisional := base }))).askRanging t l

/-- A failed attempt (R53, R55): below 3 a new ranging grant is asked for, at 3 the enrolment fails. An attempt of a RETURN context whose slot is
muted is not counted (R123; log entry 62). -/
def State.failAttempt (s : State) (t : TreeId) (l : Line) (c : Context) (base : Nat) : State :=
  if (s.slot t l).muted ∧ c.kind = .returning then s.rangeAgain t l c.attempts base
  else if c.attempts + 1 < 3 then s.rangeAgain t l (c.attempts + 1) base
  else s.failEnrol t l { c with attempts := 3 } true

/-- What a ranging burst carries (R15, R53). -/
structure RangingReport where
  e      : Int
  good   : Bool
  line   : Nat
  serial : Serial
  deriving DecidableEq, Repr, Inhabited

/-- The 20 bytes of a ranging burst (R15). -/
def readRanging (b : RangingBurst) : RangingReport :=
  { e := b.e, good := goodBurstCheck b.bytes, line := natOf (b.bytes.take 1), serial := BitVec.ofNat 48 (natOf ((b.bytes.drop 1).take 6)) }

/-- The final delay is taken (R54): out of 0..40 × ERT it cannot equalise the home; else it is recorded and its DELAY offered. -/
def State.finalDelay (s : State) (t : TreeId) (l : Line) (c : Context) (f : Int) : State :=
  if f < 0 ∨ (40 * (s.tree t).settings.ert : Int) < f then
    (s.raiseHome .outOfReach t l (.serial c.serial)).failEnrol t l c false
  else
    ((s.modSlot t l (fun x => { x with eqd := f.toNat })).modEngine t (fun e =>
      e.modContext l (fun c => { c with phase := .finalWait, accepted := false, frame := none }))).offerEnrol t l

/-- The engine takes a ranging outcome of frame n for a context in RANGE_WAIT that awaits that frame, and discards any other (R53). -/
def State.takeRanging (s : State) (t : TreeId) (l : Line) (n : Nat) (r : Option RangingReport) : State :=
  match (s.tree t).engine.contextOf l with
  | none => s
  | some c =>
    if c.phase = .rangeWait ∧ c.frame = some n then
      match r with
      | none => s.failAttempt t l c c.provisional
      | some b =>
        if b.good ∧ b.line = l.val ∧ b.serial = c.serial then s.finalDelay t l c ((c.provisional : Int) - b.e)
        else s.failAttempt t l c c.provisional
    else s

/-- A service record made for a NEW home: a copy of the tree's default (R55, R65). -/
def ServiceRecord.fresh (d : ServiceFields) : ServiceRecord :=
  { live := d, k := 0, b := 0, staged := {}, crEff := d.cr, prEff := d.pr, throttled := false }

/-- A verify that succeeds (R55). Its line leaves the planner's lists at once (log entry 79). -/
def State.verifySucceeds (s : State) (t : TreeId) (l : Line) (c : Context) (backlog : Nat) : State :=
  let s := s.enterActive t l
  let s :=
    match c.kind with
    | .returning => s
    | .new =>
      (s.modSlot t l (fun x => { x with service := some (ServiceRecord.fresh (s.tree t).settings.service) })).setAccount t l
        (.opened (openingAccount c.serial (s.tree t).settings s.band s.meter.clock))
  let s := s.modSlot t l (fun x => { x with service := x.service.map (fun r => { r with b := backlog }) })
  (s.modTree t (fun T => { T with engine := T.engine.releaseContext l, planner := T.planner.dropLine l })).raiseHome .homeActive t l
    (.homeActive c.serial c.kind (s.slot t l).eqd c.prior)

/-- The engine takes the outcome of a verify grant of frame n for a context in VERIFY_WAIT that awaits that frame (R55): `found` gives the offset
error, whether the burst was good, and its backlog report. -/
def State.takeVerify (s : State) (t : TreeId) (l : Line) (n : Nat) (found : Option (Int × Bool × Nat)) : State :=
  match (s.tree t).engine.contextOf l with
  | none => s
  | some c =>
    if c.phase = .verifyWait ∧ c.frame = some n then
      match found with
      | some (e, true, backlog) =>
        if e.natAbs ≤ 80 then s.verifySucceeds t l c backlog else s.failAttempt t l c (s.slot t l).eqd
      | _ => s.failAttempt t l c (s.slot t l).eqd
    else s

/-! ## RETURN rangings without a hello (R57, R62) -/

/-- Begins a RETURN ranging of a home that holds its line index and its delay, when a context is free (R57). -/
def State.returnRanging (s : State) (t : TreeId) (l : Line) : State × Bool :=
  match (s.tree t).engine.freeContext with
  | none => (s, false)
  | some i =>
    let c : Context :=
      { serial := (s.serialOf t l).getD 0, line := l, kind := .returning, coarse := none, provisional := (s.slot t l).eqd,
        prior := none, attempts := 0, phase := .rangeWait, accepted := true, frame := none }
    (((s.enterRanging t l).modEngine t (fun e => e.setContext i (some c))).askRanging t l, true)

/-- Whether a slot is in ACTIVE or COOLDOWN. -/
def HomeState.inService : HomeState → Bool
  | .active => true
  | .cooldown => true
  | .free => false
  | .assigned => false
  | .ranging => false
  | .lost => false
  | .quarantined => false

/-- Whether a try for a context for line `l` may come now: tries of one frame start are taken in ascending order of line index (R41). -/
def TreeState.mayTry (T : TreeState) (l : Line) : Bool :=
  match T.lastTry with
  | some k => decide (k.val < l.val)
  | none => true

/-- A try for a context for line `l` has been taken at this frame start (R41). -/
def State.noteTry (s : State) (t : TreeId) (l : Line) : State := s.modTree t (fun T => { T with lastTry := some l })

/-- Whether the slot waits for a RETURN ranging by its misplaced count (R62). -/
def Slot.wantsRanging (x : Slot) : Bool := x.state.inService && decide (x.misplaced = 4)

/-- RETURN_RANGING_RETRY (R57, R62): at a frame start a RETURN ranging that lacked a context is tried again. -/
def execReturnRangingRetry (t : TreeId) (l : Line) (s : State) : Host.Outcome State Fault Refusal :=
  s.live fun s =>
    if (s.slot t l).wantsRanging && (s.tree t).mayTry l then ((s.noteTry t l).returnRanging t l).1 else s

/-! ## Liveness and drift (R58, R59, R61, R62) -/

/-- The drift DELAY of a line is offered (R61): accepted, the slot's delay becomes its value and the run 0; refused, it is held. -/
def State.offerDrift (s : State) (t : TreeId) (l : Line) (value : Nat) : State :=
  let (s', ok) := s.offer t (.delay l value .drift)
  if ok then
    (s'.modSlot t l (fun x => { x with eqd := value, drift := {}, driftDelay := .unsent })).modEngine t (fun e => e.dropDrift l)
  else
    s'.modEngine t (fun e => { e.dropDrift l with driftHeld := (e.dropDrift l).driftHeld ++ [(l, value)] })

/-- A drift run stands at 8 after a drifting burst of offset error `err` (R61). An offer already held takes the latest error and waits for its
frame start. -/
def State.correctDrift (s : State) (t : TreeId) (l : Line) (err : Int) : State :=
  let d : Int := (s.slot t l).eqd - err
  if d < 0 ∨ (40 * (s.tree t).settings.ert : Int) < d then
    (s.modSlot t l (fun x => { x with drift := {} })).modEngine t (fun e => e.dropDrift l)
  else if (s.tree t).engine.driftHeld.any (fun p => p.1 = l) then
    s.modEngine t (fun e => { e with driftHeld := e.driftHeld.map (fun p => if p.1 = l then (l, d.toNat) else p) })
  else s.offerDrift t l d.toNat

/-- DRIFT_DELAY_RETRY (R61): at a frame start a held drift DELAY is offered again. -/
def execDriftDelayRetry (t : TreeId) (l : Line) (s : State) : Host.Outcome State Fault Refusal :=
  s.live fun s =>
    match (s.tree t).engine.driftHeld.find? (fun p => p.1 = l) with
    | some p => s.offerDrift t l p.2
    | none => s

/-- DISMISS_RETRY (R56, R59, R64): at a frame start a held DISMISS is offered again. One that a hold expiry waits for belongs to
HOLD_EXPIRY_RETRY. -/
def execDismissRetry (t : TreeId) (l : Line) (s : State) : Host.Outcome State Fault Refusal :=
  s.live fun s =>
    if l ∈ (s.tree t).engine.dismissHeld ∧ (s.slot t l).expiry ≠ .waits then s.offerDismiss t l else s

/-! ## Hold expiry (R60) -/

/-- HOLD_EXPIRY (R60): the directory has reported the hold expiry of a LOST slot (R33). -/
def execHoldExpiry (t : TreeId) (l : Line) (s : State) : Host.Outcome State Fault Refusal :=
  s.live fun s => if (s.slot t l).state = .lost ∧ (s.slot t l).expiry = .told then s.takeExpiry t l else s

/-- HOLD_EXPIRY_RETRY (R60): at a frame start an expiry that waits repeats its DISMISS offer. -/
def execHoldExpiryRetry (t : TreeId) (l : Line) (s : State) : Host.Outcome State Fault Refusal :=
  s.live fun s => if (s.slot t l).state = .lost ∧ (s.slot t l).expiry = .waits then s.takeExpiry t l else s

/-! ## Dismissal and search starts (R63, R64) -/

/-- Offers a DISMISS for an occupied slot and, once the queue has it, frees the slot (R63, R130). -/
def dismissOwner (cause : FreeCause) (tree line : Nat) (s : State) : State × Answer :=
  match treeAndLine tree line with
  | none => refused s .badValue
  | some (t, l) =>
    if (s.slot t l).state = .free then refused s .conflict
    else
      let (s', ok) := s.offer t (.dismiss l)
      if ok then finished (s'.freeSlot t l cause) else refused s .busy

/-- DISMISS_HOME (R63). -/
def execDismissHome (h : Head) (line : Nat) (s : State) : Host.Outcome State Fault Refusal :=
  s.live fun s => s.request h .dismissHome (dismissOwner .left h.tree line)

/-- A busy context abandoned at a search start (R64). A DELAY that a RETURN context has still queued is sent, but carries out no later context's step
(R52). -/
def State.abandonContext (s : State) (t : TreeId) (c : Context) : State :=
  match c.kind with
  | .new => (s.freeSlot t c.line .left).offerDismiss t c.line
  | .returning =>
    (s.modTree t (fun T =>
      { T with engine := T.engine.releaseContext c.line, framer := T.framer.disown c.line })).enterLost t c.line

/-- What a search start does to the enrolment engine, before the snapshot (R64): a SCHEDULED window is skipped and every context abandoned, in
position order. -/
def State.abandonEnrolments (s : State) (t : TreeId) : State :=
  let s :=
    match (s.tree t).engine.window with
    | some w => if w.opened then s else s.skipWindow t
    | none => s
  (s.tree t).engine.busy.foldl (fun s c => s.abandonContext t c) s

end Sys2Proof.Machine
end

