-- ==== Sys2Proof/Machine/Planner.lean ====
section
/-! DEFINITION. The upstream planner (04_the_upstream_planner.md): service records, staging and hold, window layout, the passes of a plan, and
its requests. -/

namespace Sys2Proof.Machine

/-! ## Service records (R66, R67, R69, R70) -/

/-- CR_eff and PR_eff of a record for a home that is throttled or not (R66). -/
def ServiceFields.rates (f : ServiceFields) (throttled : Bool) : Nat × Nat :=
  if throttled then (min f.cr f.tr, min f.pr f.tr) else (f.cr, f.pr)

/-- The owner's part of SET_SERVICE (R67). -/
def setServiceOwner (h : Head) (line : Nat) (f : ServiceChange) (s : State) : State × Answer :=
  match treeAndLine h.tree line with
  | none => refused s .badValue
  | some (t, l) =>
    match (s.slot t l).service with
    | none => refused s .conflict
    | some r =>
      let f := f.forLink h.link
      if f.count = 0 then (s, doneWith (.count 0))
      else
        let laid := layFields 2 f (r.staged.over r.live)
        (s.modSlot t l (fun x => { x with service := some { r with staged := stagedOf laid.1 r.live } }),
         settled laid.2 (.count f.count))

/-- SET_SERVICE (R67). -/
def execSetService (h : Head) (line : Nat) (f : ServiceChange) (s : State) : Host.Outcome State Fault Refusal :=
  s.live fun s => s.request h .setService (setServiceOwner h line f)

/-- Whether a staged part holds any value. -/
def anyStaged (f : ServiceChange) : Bool := 0 < f.count

/-- Whether the staged part of a slot on a tree is waiting: for the hold to end, or for the slot to reach ACTIVE or COOLDOWN (R69, R73). -/
def ServiceRecord.waits (r : ServiceRecord) (holding : Bool) (state : HomeState) : Bool :=
  anyStaged r.staged && (holding || !state.inService)

/-- A record as READ_SERVICE gives it (R69). -/
def ServiceRecord.view (r : ServiceRecord) (holding : Bool) (state : HomeState) : ServiceView :=
  { live := r.live, k := r.k, b := r.b, crEff := r.crEff, prEff := r.prEff, throttled := r.throttled, staged := r.staged,
    waiting := r.waits holding state }

/-- The owner's part of READ_SERVICE (R69). -/
def readServiceOwner (tree line : Nat) (s : State) : State × Answer :=
  match treeAndLine tree line with
  | none => refused s .badValue
  | some (t, l) =>
    match (s.slot t l).service with
    | none => refused s .conflict
    | some r => (s, doneWith (.service (r.view (s.tree t).planner.hold.isSome (s.slot t l).state)))

/-- READ_SERVICE (R69). -/
def execReadService (h : Head) (line : Nat) (s : State) : Host.Outcome State Fault Refusal :=
  s.live fun s => s.request h .readService (readServiceOwner h.tree line)

/-- The lower of two field positions, where there are any. -/
def earlierField : Option Nat → Option Nat → Option Nat
  | some a, some b => some (min a b)
  | some a, none => some a
  | none, b => b

/-- The default record of a tree with the fields of a change laid over it (R70). -/
def State.setDefault (s : State) (t : TreeId) (f : ServiceChange) : State :=
  s.modTree t (fun T => { T with settings := { T.settings with service := (layFields 1 f T.settings.service).1 } })

/-- The owner's part of SET_DEFAULT_SERVICE (R70). -/
def setDefaultServiceOwner (h : Head) (f : ServiceChange) (s : State) : State × Answer :=
  match someTrees h.tree with
  | none => refused s .badValue
  | some ts =>
    let f := f.forLink h.link
    if f.count = 0 then (s, doneWith (.count 0))
    else
      (ts.foldl (fun s t => s.setDefault t f) s,
       settled (ts.foldl (fun p t => earlierField p (layFields 1 f (s.tree t).settings.service).2) none) (.count f.count))

/-- SET_DEFAULT_SERVICE (R70). -/
def execSetDefaultService (h : Head) (f : ServiceChange) (s : State) : Host.Outcome State Fault Refusal :=
  s.live fun s => s.request h .setDefaultService (setDefaultServiceOwner h f)

/-! ## Staging and hold (R73 to R76) -/

/-- The staged values go live, and K is held at the new BA (R73). -/
def ServiceRecord.applied (r : ServiceRecord) : ServiceRecord :=
  if anyStaged r.staged then
    let live := r.staged.over r.live
    { r with live := live, staged := {}, k := min r.k live.ba }
  else r

/-- The staged parts of the slots in ACTIVE or COOLDOWN are applied unless the tree is holding (R73). -/
def TreeState.applyStaged (T : TreeState) : TreeState :=
  match T.planner.hold with
  | some _ => T
  | none => T.mapSlots (fun _ x => if x.state.inService then { x with service := x.service.map ServiceRecord.applied } else x)

/-- The hold of a tree ends: NONE, and the staged parts are applied (R73, R76). -/
def State.lapseHold (s : State) (t : TreeId) : State :=
  (s.modTree t (fun T => ({ T with planner := { T.planner with hold := none } }).applyStaged)).raiseTree .holdLapsed t .none

/-- HOLD_LAPSED (R76): a hold count reaches 0 at a frame start. It is due while the count has one frame left; FRAME_START takes it by itself when
it has not come by then (log entry 11). -/
def execHoldLapsed (t : TreeId) (s : State) : Host.Outcome State Fault Refusal :=
  s.live fun s =>
    match (s.tree t).planner.hold with
    | some c => if c ≤ 1 then s.lapseHold t else s
    | none => s

/-- The hold count of a holding tree decreases by 1 before the planner's other work; at 0 the hold lapses (R74, R76). -/
def State.countHold (s : State) (t : TreeId) : State :=
  match (s.tree t).planner.hold with
  | some c =>
    if c ≤ 1 then s.lapseHold t else s.modPlanner t (fun p => { p with hold := some (c - 1) })
  | none => s

/-- The owner's part of HOLD_TREE (R74). -/
def holdTreeOwner (tree : Nat) (s : State) : State × Answer :=
  match someTrees tree with
  | none => refused s .badValue
  | some ts => finished (ts.foldl (fun s t => s.modPlanner t (fun p => { p with hold := some Config.holdFrames })) s)

/-- HOLD_TREE (R74). -/
def execHoldTree (h : Head) (s : State) : Host.Outcome State Fault Refusal :=
  s.live fun s => s.request h .holdTree (holdTreeOwner h.tree)

/-- The owner's part of RELEASE_HOLD (R75). -/
def releaseHoldOwner (tree : Nat) (s : State) : State × Answer :=
  match someTrees tree with
  | none => refused s .badValue
  | some ts =>
    if ts.any (fun t => (s.tree t).planner.hold.isSome) then
      finished (ts.foldl (fun s t => s.modPlanner t (fun p => { p with hold := none })) s)
    else refused s .conflict

/-- RELEASE_HOLD (R75). -/
def execReleaseHold (h : Head) (s : State) : Host.Outcome State Fault Refusal :=
  s.live fun s => s.request h .releaseHold (releaseHoldOwner h.tree)

/-! ## Window layout (R77 to R79) -/

/-- The quiet portion of frame n, and the remainder carried into frame n + 1 (R77). -/
def Planner.quietPortion (p : Planner) (n : Nat) : Nat × Option (Nat × Nat) :=
  match p.quiet, p.remainder with
  | some (f, q), r =>
    if f = n then (min q Config.frameSU, if Config.frameSU < q then some (n + 1, q - Config.frameSU) else none)
    else
      match r with
      | some (m, len) => if m = n then (len, none) else (0, some (m, len))
      | none => (0, none)
  | none, some (m, len) => if m = n then (len, none) else (0, some (m, len))
  | none, none => (0, none)

/-- The pending window that remains after frame n has begun (R77). -/
def Planner.quietAfter (p : Planner) (n : Nat) : Option (Nat × Nat) :=
  match p.quiet with
  | some (f, q) => if f = n then none else some (f, q)
  | none => none

/-- What the planner makes of a list of asked-for grants: the lines placed, and the lines that stay in the list (R78). -/
structure Placing where
  placed : List Line
  kept   : List Line
  deriving DecidableEq, Repr, Inhabited

/-- Goes through a list in order with `room` SU left, each grant or window costing `cost` SU: a line whose slot has left RANGING leaves the list,
one that is muted or does not fit stays (R78), and so does one that has a grant of the plan already, since a plan holds at most one grant per
slot (R89; log entry 37). `taken` holds the lines that have one. -/
def TreeState.placeList (T : TreeState) (cost : Nat) : List Line → Nat → List Line → Placing
  | _, _, [] => { placed := [], kept := [] }
  | taken, room, l :: rest =>
    if (T.slot l).state = .ranging then
      if (T.slot l).muted = false ∧ cost ≤ room ∧ l ∉ taken then
        let r := T.placeList cost (l :: taken) (room - cost) rest
        { r with placed := l :: r.placed }
      else
        let r := T.placeList cost taken room rest
        { r with kept := l :: r.kept }
    else T.placeList cost taken room rest

/-- Where the search window or the probe window begins, which ends the span (R79). -/
def spanLimit (searching : Bool) : Nat := if searching then Config.searchStart else Config.probeStart

/-! ## Eligibility and credit (R80 to R82) -/

/-- Whether a slot is eligible for grants (R81). -/
def Slot.eligible (x : Slot) : Bool := x.state.inService && !x.muted

/-- The rotation order: the eligible lines from the rotation pointer on, wrapping (R81). -/
def TreeState.rotationOrder (T : TreeState) : List Line :=
  (linesFrom T.planner.rotation).filter (fun l => (T.slot l).eligible)

/-- What the passes know of an eligible home: its credit after accrual, backlog, effective peak rate and weight, whether it is ACTIVE and whether
it is in the status set, and the bytes granted it so far. -/
structure PlanHome where
  line     : Line
  active   : Bool
  inSet    : Bool
  k        : Nat
  b        : Nat
  pr       : Nat
  w        : Nat
  g1       : Nat
  share    : Nat
  deriving DecidableEq, Repr, Inhabited

/-- The credit of a home after accrual (R82). -/
def accrued (r : ServiceRecord) (throttled : Bool) : Nat := min (r.k + (r.live.rates throttled).1) r.live.ba

/-- An eligible home at the start of the passes (R81 to R83). -/
def TreeState.planHome (T : TreeState) (l : Line) : PlanHome :=
  let x := T.slot l
  let active := decide (x.state = .active)
  let inSet := decide (x.state = .cooldown) || decide (T.settings.statusInterval ≤ x.sinceGrant)
  match x.service with
  | some r =>
    { line := l, active := active, inSet := inSet, k := if active then accrued r x.isThrottled else r.k, b := r.b,
      pr := (r.live.rates x.isThrottled).2, w := r.live.w, g1 := 0, share := 0 }
  | none => { line := l, active := active, inSet := inSet, k := 0, b := 0, pr := 0, w := 0, g1 := 0, share := 0 }

/-! ## The passes (R85 to R87) -/

/-- The committed pass with overhead `o` and remaining span `r`: the homes with their g1, and R (R85). The cut grant takes the whole remainder and
ends the pass: the homes after it have g1 = 0 and keep their K. A reserved home among them gets no reservation added back, as the rule's last
sentences have it and its steps alone would not (log entry 64). -/
def committedPass (o : Nat) : Nat → List PlanHome → List PlanHome × Nat
  | r, [] => ([], r)
  | r, h :: rest =>
    let g := min h.b (min h.k h.pr)
    if h.active = false ∨ g = 0 then
      let (hs, r') := committedPass o r rest
      (h :: hs, r')
    else
      let back := if h.inSet then r + (o + 2) else r
      let cost := ceilDiv g 5 + o
      if cost ≤ back then
        let (hs, r') := committedPass o (back - cost) rest
        ({ h with g1 := g } :: hs, r')
      else if o + 1 ≤ back then ({ h with g1 := min g (5 * (back - o)) } :: rest, 0)
      else
        let (hs, r') := committedPass o r rest
        (h :: hs, r')

/-- What a home could still use: d = min(B − g1, PR_eff − g1) (R86). -/
def PlanHome.demand (h : PlanHome) : Nat := min (h.b - h.g1) (h.pr - h.g1)

/-- Whether a home's committed grant was cut (R85): it is below min(B, K, PR_eff) and above 0. -/
def PlanHome.cut (h : PlanHome) : Bool := decide (0 < h.g1) && decide (h.g1 < min h.b (min h.k h.pr))

/-- Whether a home is in the excess set (R86). -/
def PlanHome.wantsExcess (h : PlanHome) : Bool := h.active && decide (0 < h.demand)

/-- The reservation a home gives back in the excess pass (R86 step 1). -/
def PlanHome.reservation (h : PlanHome) (o : Nat) : Nat := if h.inSet then o + 2 else 0

/-- Step 2 of R86 over the members without a committed grant, last in rotation order first, with `olds` members that hold one: the span left and
the members left, in the same order. -/
def dropMembers (o olds : Nat) : Nat → List PlanHome → Nat × List PlanHome
  | r, [] => (r, [])
  | r, h :: rest =>
    if r < (rest.length + 1) * o + (olds + rest.length + 1) then dropMembers o olds (r - h.reservation o) rest
    else (r, h :: rest)

/-- The bytes granted to a home for its data burst, g = g1 + e (R87). -/
def PlanHome.granted (h : PlanHome) : Nat := h.g1 + h.share

/-- The SU of a home's grant in the span: its DATA grant, or the STATUS grant of a home of the status set that has none (R87, R88). -/
def PlanHome.grantSU (h : PlanHome) (o : Nat) : Nat :=
  if 0 < h.granted then ceilDiv h.granted 5 + o else if h.inSet then o + 2 else 0

/-- The SU that the homes' grants take in the span. -/
def homesSU (o : Nat) (homes : List PlanHome) : Nat := (homes.map (fun h => h.grantSU o)).sum

/-- The shares of a pool where the grants they make fit in `room` SU, else those of a pool 5 bytes smaller, and so on; no shares where none fits. The
pool of R86 fits but where the share of a reserved home rounds to 0 and R88 gives it a status grant after all; the law of R89 holds there too (log
entry 37). -/
def fittingShares (o room : Nat) (shares : Nat → List PlanHome) (homes : List PlanHome) : Nat → Nat → List PlanHome
  | 0, _ => homes
  | fuel + 1, pool =>
    if homesSU o (shares pool) ≤ room then shares pool else fittingShares o room shares homes fuel (pool - 5)

/-- A member's share of a pool (R86): min(d, floor(X × w / W)). The home of a cut grant has none, as R87 gives, though reservations given back by
step 1 can leave a pool above 0; it stays in E and in W (log entry 65). -/
def PlanHome.shareOf (h : PlanHome) (pool weight : Nat) : Nat := if h.cut then 0 else min h.demand (pool * h.w / weight)

/-- The excess pass, over the remaining span `r`: the homes with their shares, and the number of members dropped (R86). `room` is the span that all
grants of the homes have. -/
def excessPass (o room r : Nat) (homes : List PlanHome) : List PlanHome × Nat :=
  let olds := (homes.filter (fun h => h.wantsExcess && decide (0 < h.g1))).length
  let news := homes.filter (fun h => h.wantsExcess && decide (h.g1 = 0))
  let (r, kept) := dropMembers o olds (r + (news.map (fun h => h.reservation o)).sum) news.reverse
  let size := olds + kept.length
  let isMember := fun (h : PlanHome) => h.wantsExcess && (decide (0 < h.g1) || kept.any (fun k => k.line = h.line))
  let out :=
    if r < kept.length * o + size then homes
    else
      let weight := ((homes.filter isMember).map PlanHome.w).sum
      let shares := fun (pool : Nat) =>
        homes.map (fun h => if isMember h then { h with share := h.shareOf pool weight } else h)
      fittingShares o room shares homes (size + 1) (5 * (r - kept.length * o - size))
  (out, news.length - kept.length)

/-! ## Status reservation and the outcome of the passes (R83, R84, R88) -/

/-- What the passes decide: the verify lines, the lines of the status grants in rotation order, the homes with their bytes, and the counts of
R72. -/
structure Passes where
  verify  : Placing
  status  : List Line
  homes   : List PlanHome
  waited  : Nat
  dropped : Nat
  deriving DecidableEq, Repr, Inhabited

/-- The status reservation and the passes over a span of A SU (R83 to R88). `ranged` are the lines that have a ranging grant of the plan. -/
def TreeState.runPasses (T : TreeState) (ranged : List Line) (span : Nat) : Passes :=
  let o := T.settings.overhead
  let homes := T.rotationOrder.map T.planHome
  let set := (homes.filter PlanHome.inSet).map PlanHome.line
  let total := (o + 2) * set.length
  if span < total then
    { verify := { placed := [], kept := T.planner.verifyList }, status := set.take (span / (o + 2)), homes := homes,
      waited := set.length - span / (o + 2), dropped := 0 }
  else
    let verify := T.placeList (o + 2) ranged (span - total) T.planner.verifyList
    let room := span - (o + 2) * verify.placed.length
    let (homes, r) := committedPass o (room - total) homes
    let (homes, dropped) := excessPass o room r homes
    { verify := verify
      status := (homes.filter (fun h => h.inSet && (!h.active || decide (h.granted = 0)))).map PlanHome.line
      homes := homes, waited := 0, dropped := dropped }

/-! ## Placement and book-keeping (R89 to R91) -/

/-- Grants placed back to back from an offset (R89). -/
def placeGrants (kind : GrantKind) : Nat → List (Line × Nat) → List Grant
  | _, [] => []
  | start, (l, n) :: rest => { line := l, kind := kind, start := start, length := n } :: placeGrants kind (start + n) rest

/-- The starts of `k` ranging windows from an offset (R78). -/
def windowStarts (start k : Nat) : List Nat := (List.range k).map (fun i => start + Config.rangingWindow * i)

/-- The total length of some grants. -/
def grantedSU (gs : List Grant) : Nat := (gs.map Grant.length).sum

/-- A service record after a plan: the effective rates and the throttle of that plan, which READ_SERVICE reports (R66, R69). -/
def ServiceRecord.planned (r : ServiceRecord) (throttled : Bool) : ServiceRecord :=
  { r with crEff := (r.live.rates throttled).1, prEff := (r.live.rates throttled).2, throttled := throttled }

/-- A slot after a plan: its effective rates noted, the credit of an eligible home (R82), and frames-since-grant (R90). -/
def Slot.planned (x : Slot) (home : Option PlanHome) (granted : Bool) : Slot :=
  { x with
    service := x.service.map (fun r =>
      { r.planned x.isThrottled with k := (home.map (fun h => h.k - h.g1)).getD r.k })
    sinceGrant :=
      if x.state.inService then (if granted then 0 else min (x.sinceGrant + 1) 65535) else x.sinceGrant }

/-- The plan of frame n over a tree whose staged parts have been applied, and the tree after the book-keeping (R77 to R91). -/
def TreeState.buildPlan (T : TreeState) (n : Nat) : TreeState × Plan :=
  let o := T.settings.overhead
  let searching := T.search.running
  let quiet := (T.planner.quietPortion n).1
  let limit := spanLimit searching
  let ranging := T.placeList Config.rangingWindow [] (limit - quiet) T.planner.rangingList
  let windows := windowStarts quiet ranging.placed.length
  let spanStart := quiet + Config.rangingWindow * ranging.placed.length
  let span := limit - spanStart
  let p := T.runPasses ranging.placed span
  let data := (p.homes.filter (fun h => decide (0 < h.granted))).map (fun h => (h.line, ceilDiv h.granted 5 + o))
  let rangingGrants := (ranging.placed.zip windows).map (fun q =>
    ({ line := q.1, kind := .ranging, start := q.2 + Config.rangingLength, length := Config.rangingLength } : Grant))
  let placed := placeGrants .status spanStart ((p.verify.placed ++ p.status).map (fun l => (l, o + 2)))
  let dataGrants := placeGrants .data (spanStart + grantedSU placed) data
  let grants := rangingGrants ++ placed ++ dataGrants
  let summary : Summary :=
    { frame := n, span := span, dataGrants := dataGrants.length, statusGrants := placed.length,
      rangingGrants := rangingGrants.length, granted := grantedSU grants,
      dark := span - grantedSU placed - grantedSU dataGrants, waited := p.waited, dropped := p.dropped }
  let granted := fun (l : Line) => decide (l ∈ p.status) || data.any (fun d => d.1 = l)
  let engine := ranging.placed.foldl (fun e l => e.toldFrame l .rangeWait n) T.engine
  let engine := p.verify.placed.foldl (fun e l => e.toldFrame l .verifyWait n) engine
  let planner : Planner :=
    { T.planner with
      rotation := (p.homes.head?.map (fun h => nextLine h.line)).getD T.planner.rotation
      quiet := T.planner.quietAfter n, remainder := (T.planner.quietPortion n).2, rangingList := ranging.kept
      verifyList := p.verify.kept, summary := summary }
  let T' := T.mapSlots (fun l x => x.planned (p.homes.find? (fun h => h.line = l)) (granted l))
  ({ T' with engine := engine, planner := planner },
   { frame := n, overhead := o, ert := T.settings.ert, grants := grants, quiet := quiet, windows := windows,
     search := searching && decide (quiet < Config.frameSU), probe := decide (quiet < Config.frameSU) })

end Sys2Proof.Machine
end

