-- ==== Sys2Proof/Machine/Search.lean ====
section
/-! DEFINITION. The light watch (R105 to R110) and the isolation search with quarantine (06_isolation_search_and_quarantine.md). -/

namespace Sys2Proof.Machine

/-! ## Steps of a test (R114, R115) -/

/-- Whether a slot is testable: neither FREE nor QUARANTINED (R114). -/
def Slot.testable (x : Slot) : Bool := decide (x.state ≠ .free) && decide (x.state ≠ .quarantined)

/-- The snapshot of a tree: its testable lines, ascending (R114). -/
def TreeState.takeSnapshot (T : TreeState) : List Line := allLines.filter (fun l => (T.slot l).testable)

/-- Whether a snapshot position lies in a group. -/
def Group.has (g : Group) (p : Nat) : Bool := decide (g.lo ≤ p) && decide (p < g.hi)

/-- The lower half of a group (R119). -/
def Group.lower (g : Group) : Group := { lo := g.lo, hi := g.lo + (g.hi - g.lo) / 2 }

/-- The upper half of a group (R119). -/
def Group.upper (g : Group) : Group := { lo := g.lo + (g.hi - g.lo) / 2, hi := g.hi }

/-- The positions of a group whose members are testable, ascending (R114). -/
def TreeState.testableIn (T : TreeState) (g : Group) : List Nat :=
  (List.range T.search.snapshot.length).filter (fun p =>
    g.has p && (match T.search.snapshot[p]? with
      | some l => (T.slot l).testable
      | none => false))

/-- Whether the members of a test's group at a position transmit during the test (R118 to R120). -/
def TestKind.lets (k : TestKind) (g : Group) (p : Nat) : Bool :=
  match k with
  | .verify => false
  | .split => g.lower.has p
  | .single => true
  | .confirm => false

/-- The flag a step wants of the member at a position (R118 to R120): the members of the groups on the stack are muted, those of the test's group
as the test lets them, and every other member, cleared or skipped before, is unmuted. -/
def wantsMuted (stack : List Group) (k : TestKind) (g : Group) (p : Nat) : Bool :=
  if g.has p then !k.lets g p else stack.any (fun h => h.has p)

/-- What a step has offered so far: the lines awaited, and the retry list. -/
structure Offers where
  awaited : List Line := []
  retry   : List (Line × Bool) := []
  deriving DecidableEq, Repr, Inhabited

/-- Offers one line its MUTE or UNMUTE for a step (R115): accepted, the flag takes its value and the line is awaited; refused, it joins the retry
list. -/
def State.offerFlag (s : State) (t : TreeId) (step : Nat) (l : Line) (mute : Bool) (o : Offers) : State × Offers :=
  let (s', ok) := s.offer t (if mute then .mute l (some step) else .unmute l (some step))
  if ok then (s'.modSlot t l (fun x => { x with muted := mute }), { o with awaited := o.awaited ++ [l] })
  else (s', { o with retry := o.retry ++ [(l, mute)] })

/-- The messages of a step: each testable member whose flag differs from its target, in ascending line order (R115). -/
def State.offerStep (s : State) (t : TreeId) (step : Nat) (want : Nat → Bool) : State × Offers :=
  let members := (s.tree t).search.snapshot
  (List.range members.length).foldl (fun (acc : State × Offers) p =>
    match members[p]? with
    | some l =>
      let x := acc.1.slot t l
      if x.testable && (x.muted != want p) then acc.1.offerFlag t step l (want p) acc.2 else acc
    | none => acc) (s, {})

/-- A test begins with its step (R115). A step that needs no message has m the last frame started on the tree. The rule gives no m for a step whose
messages are all withdrawn unsent, nor one to show before the first is sent; both have that same m in the model (log entry 59). The span length is
fixed when the test moves to OBSERVING (R116); what READ_SEARCH shows for it before is the setting as it stood at the beginning (log entry 66). -/
def State.beginTest (s : State) (t : TreeId) (k : TestKind) (g : Group) : State :=
  let step := (s.tree t).search.steps + 1
  let (s, o) := s.offerStep t step (wantsMuted (s.tree t).search.stack k g)
  let test : Test :=
    { kind := k, group := g, step := step, observing := false, retry := o.retry, awaited := o.awaited, m := s.lastStarted t,
      span := (s.tree t).settings.span, counted := 0, lit := 0 }
  s.modTree t (fun T =>
    { T with search := { T.search with steps := step, test := some (test.settle T.settings.span) } })

/-- SEARCH_OFFER_RETRY (R115): at a frame start the lines of the retry list are offered again, ascending. -/
def execSearchOfferRetry (t : TreeId) (s : State) : Host.Outcome State Fault Refusal :=
  s.live fun s =>
    match (s.tree t).search.test with
    | none => s
    | some x =>
      let (s, o) := x.retry.foldl (fun (acc : State × Offers) p => acc.1.offerFlag t x.step p.1 p.2 acc.2) (s, { awaited := x.awaited })
      s.modTree t (fun T => T.modTest (fun x => { x with awaited := o.awaited, retry := o.retry }))

/-- A MUTE or UNMUTE of a step has been sent in frame n: the line leaves the awaited set (R115). -/
def TreeState.searchSent (T : TreeState) (l : Line) (step n : Nat) : TreeState :=
  T.modTest (fun x => if x.step = step ∧ l ∈ x.awaited then { x with awaited := dropLine x.awaited l, m := some n } else x)

/-! ## Ending a search (R109, R117) -/

/-- The tree rogue state after a search's outcome (R109). -/
def SearchOutcome.rogue : SearchOutcome → Rogue
  | .done => .clear
  | .foreign => .foreign
  | .unresolved => .unresolved
  | .aborted => .suspect

/-- The light watch takes a new state from the search, with its current counts cleared (R106, R109). -/
def Watch.enter (w : Watch) (r : Rogue) : Watch := { w with rogue := r, current := {} }

/-- The light watch takes the state of a search's outcome (R109); an end that comes while a period's end is due is noted (log entry 63). -/
def Watch.leave (w : Watch) (o : SearchOutcome) : Watch :=
  { w.enter o.rogue with endedFirst := w.endedFirst || w.periodDue.isSome }

/-- A search ends with an outcome (R117). -/
def State.endSearch (s : State) (t : TreeId) (o : SearchOutcome) : State :=
  let s := s.modTree t (fun T =>
    { T with
      search := { T.search with
        running := false, stack := [], test := none
        release := allLines.filter (fun l => (T.slot l).muted && decide ((T.slot l).state ≠ .quarantined))
        last := some { outcome := o, frame := T.receiver.lastEnded, quarantined := T.search.quarantined,
                       restarts := T.search.restarts } }
      watch := T.watch.leave o })
  s.raiseTree .searchDone t (.searchDone o (s.tree t).search.quarantined (s.tree t).search.restarts)

/-- RELEASE_LIST_DRAIN (R117): after a search has ended, an UNMUTE is offered for each line on the release list, ascending; an accepted line has
its flag cleared and leaves the list. -/
def execReleaseListDrain (t : TreeId) (s : State) : Host.Outcome State Fault Refusal :=
  s.live fun s =>
    if (s.tree t).search.running then s
    else
      (s.tree t).search.release.foldl (fun s l =>
        let (s', ok) := s.offer t (.unmute l none)
        if ok then
          (s'.modSlot t l (fun x => { x with muted := false })).modSearch t (fun x => { x with release := dropLine x.release l })
        else s') s

/-! ## The tests (R118 to R122) -/

/-- `s` with the search stack of a tree replaced. -/
def State.withStack (s : State) (t : TreeId) (stack : List Group) : State := s.modSearch t (fun x => { x with stack := stack })

/-- Takes the next group (R119): a group with no testable member is discarded, one of one testable member is tested by R120 as it was popped, any
other is split, its lower half cleared without a test when no member of it is testable. -/
def State.takeNext (s : State) (t : TreeId) (fuel : Nat) : State :=
  match fuel with
  | 0 => s.endSearch t .done
  | fuel + 1 =>
    match (s.tree t).search.stack with
    | [] => s.endSearch t .done
    | g :: rest =>
      match (s.tree t).testableIn g with
      | [] => (s.withStack t rest).takeNext t fuel
      | [_] => (s.withStack t rest).beginTest t .single g
      | _ :: _ :: _ =>
        if ((s.tree t).testableIn g.lower).isEmpty then (s.withStack t (g.upper :: rest)).takeNext t fuel
        else (s.withStack t rest).beginTest t .split g

/-- A bound on the groups taken in one event that no event reaches: at most 8 groups stand on the stack, and each is halved at most 7 times. -/
def searchFuel : Nat := 200

/-- The verify test begins over the whole snapshot (R118). -/
def State.beginVerify (s : State) (t : TreeId) : State :=
  let s := s.modTree t (fun T => { T with search := { T.search with snapshot := T.takeSnapshot, stack := [], test := none } })
  s.beginTest t .verify { lo := 0, hi := (s.tree t).search.snapshot.length }

/-- A search starts (R113): the enrolments are abandoned (R64), the release list and the stack emptied, the counts 0, the run state RUNNING and the
tree SEARCHING (R109), the snapshot taken and the verify test begun. -/
def State.startSearch (s : State) (t : TreeId) : State :=
  let s := s.abandonEnrolments t
  let s := s.modTree t (fun T =>
    { T with search := { T.search with release := [], restarts := 0, quarantined := 0, running := true }
             watch := T.watch.enter .searching })
  s.beginVerify t

/-- A lit CONFIRM restarts the search, or at the third restart ends it UNRESOLVED (R122). -/
def State.restartSearch (s : State) (t : TreeId) : State :=
  let s := s.modSearch t (fun x => { x with restarts := x.restarts + 1 })
  if 3 ≤ (s.tree t).search.restarts then s.endSearch t .unresolved else s.beginVerify t

/-- The testable member of a group of one testable member, if it is testable still (R120, R124). -/
def TreeState.memberOf (T : TreeState) (g : Group) : Option Line := (T.testableIn g).head?.bind (fun p => T.search.snapshot[p]?)

/-- A culprit is quarantined with cause SEARCH (R120). -/
def State.quarantineCulprit (s : State) (t : TreeId) (l : Line) : State :=
  (s.modSearch t (fun x => { x with quarantined := x.quarantined + 1 })).enterQuarantined t l .search

/-- The verdict of a span (R118 to R122). A SINGLE or CONFIRM whose member is no longer testable decides nothing of it (R123, R124). -/
def State.verdict (s : State) (t : TreeId) (x : Test) : State :=
  let lit := decide (2 ≤ x.lit)
  let stack := (s.tree t).search.stack
  match x.kind with
  | .verify =>
    if lit then s.endSearch t .foreign
    else if x.group.lo < x.group.hi then (s.withStack t [x.group]).takeNext t searchFuel
    else s.endSearch t .done
  | .split =>
    if lit then (s.withStack t (x.group.lower :: x.group.upper :: stack)).takeNext t searchFuel
    else (s.withStack t (x.group.upper :: stack)).takeNext t searchFuel
  | .single =>
    if lit && ((s.tree t).memberOf x.group).isSome then s.beginTest t .confirm x.group else s.takeNext t searchFuel
  | .confirm =>
    if lit then s.restartSearch t
    else
      match (s.tree t).memberOf x.group with
      | some l => (s.quarantineCulprit t l).takeNext t searchFuel
      | none => s.takeNext t searchFuel

/-- SPAN_END (R116): the report that completes a test's span gives its verdict. -/
def execSpanEnd (t : TreeId) (s : State) : Host.Outcome State Fault Refusal :=
  s.live fun s =>
    match (s.tree t).search.test with
    | some x => if x.observing ∧ x.span ≤ x.counted then s.verdict t x else s
    | none => s

/-! ## Frame reports (R104, R106, R116) -/

/-- A frame report of R104: the receive frame, whether it was a dark-light frame, its expected bursts and those that arrived bad. -/
structure FrameReport where
  frame    : Nat
  dark     : Bool
  expected : Nat
  bad      : Nat
  deriving DecidableEq, Repr, Inhabited

/-- Whether receive frame n lies above m, m being none before frame 0 (R115). -/
def afterFrame (m : Option Nat) (n : Nat) : Bool :=
  match m with
  | some k => decide (k < n)
  | none => true

/-- The search takes a frame report in stage OBSERVING (R116). -/
def Test.report (x : Test) (r : FrameReport) : Test :=
  if x.observing && afterFrame x.m r.frame then
    { x with counted := x.counted + 1, lit := if r.dark then x.lit + 1 else x.lit }
  else x

/-- The first frame of the period a receive frame lies in (R106). -/
def Watch.periodOf (w : Watch) (n : Nat) : Nat := w.first + Config.watchPeriod * ((n - w.first) / Config.watchPeriod)

/-- The light watch takes a frame report (R105, R106): one of a frame before its period sequence is discarded, one that finds the tree SEARCHING is
not counted; the last report of a period makes its end due (R107). -/
def Watch.report (w : Watch) (r : FrameReport) : Watch :=
  if r.frame < w.first then w
  else
    let c := w.current
    let counted : WatchCounts :=
      { d := if r.dark then c.d + 1 else c.d, n := c.n + r.expected, bb := c.bb + r.bad, frames := c.frames + 1 }
    let w := if w.rogue = .searching then w else { w with current := counted }
    if r.frame = w.periodOf r.frame + (Config.watchPeriod - 1) then { w with periodDue := some (w.periodOf r.frame) } else w

/-- The report of a receive frame reaches the light watch and the isolation search (R104). -/
def TreeState.takeReport (T : TreeState) (r : FrameReport) : TreeState :=
  { T with watch := T.watch.report r, search := { T.search with test := T.search.test.map (fun x => x.report r) } }

/-! ## Period ends (R107, R108) -/

/-- The bad-burst rule: N is at least 32 and 4 × Bb at least N (R107). -/
def WatchCounts.badRule (c : WatchCounts) : Bool := decide (32 ≤ c.n) && decide (c.n ≤ 4 * c.bb)

/-- The rising condition (R107). -/
def WatchCounts.rising (c : WatchCounts) (rise : Nat) : Bool := decide (rise ≤ c.d) || c.badRule

/-- The state a period end gives (R107). Where a search has ended first at the same moment, FOREIGN and UNRESOLVED stay as they are (R109). -/
def Rogue.atPeriodEnd (r : Rogue) (c : WatchCounts) (rise fall : Nat) (endedFirst : Bool) : Rogue :=
  match r with
  | .clear => if c.rising rise then .suspect else .clear
  | .suspect => if decide (c.d ≤ fall) && !c.badRule then .clear else .suspect
  | .searching => .searching
  | .foreign => if c.d ≤ fall ∧ endedFirst = false then .clear else .foreign
  | .unresolved => if c.d ≤ fall ∧ endedFirst = false then .clear else .unresolved

/-- The end of the watch period of first frame `p` (R107, R108). -/
def State.periodEnd (s : State) (t : TreeId) (p : Nat) : State :=
  let T := s.tree t
  let c := T.watch.current
  let next := T.watch.rogue.atPeriodEnd c T.settings.rise T.settings.fall T.watch.endedFirst
  let s := s.modWatch t (fun w =>
    { w with rogue := next, current := {}, last := c, lastFirst := p, periodDue := none, endedFirst := false })
  if T.watch.rogue = .clear ∧ next = .suspect then
    let s := s.raiseTree .darkLight t (.darkLight c.d c.n c.bb)
    if T.settings.autoSearch then s.startSearch t else s
  else s

/-- WATCH_PERIOD_END (R107): the period whose last report has been counted is judged. -/
def execWatchPeriodEnd (t : TreeId) (s : State) : Host.Outcome State Fault Refusal :=
  s.live fun s =>
    match (s.tree t).watch.periodDue with
    | some p => s.periodEnd t p
    | none => s

/-! ## Requests (R113, R125, R127, R129, R130) -/

/-- The owner's part of START_SEARCH (R113). -/
def startSearchOwner (tree : Nat) (s : State) : State × Answer :=
  match oneTree tree with
  | none => refused s .badValue
  | some t =>
    if (s.tree t).watch.rogue = .searching then refused s .busy else (s.startSearch t, { code := .accepted })

/-- START_SEARCH (R113). -/
def execStartSearch (h : Head) (s : State) : Host.Outcome State Fault Refusal :=
  s.live fun s => s.request h .startSearch (startSearchOwner h.tree)

/-- The owner's part of ABORT_SEARCH (R125). -/
def abortSearchOwner (tree : Nat) (s : State) : State × Answer :=
  match oneTree tree with
  | none => refused s .badValue
  | some t => if (s.tree t).search.running then finished (s.endSearch t .aborted) else refused s .conflict

/-- ABORT_SEARCH (R125). -/
def execAbortSearch (h : Head) (s : State) : Host.Outcome State Fault Refusal :=
  s.live fun s => s.request h .abortSearch (abortSearchOwner h.tree)

/-- The contexts of a tree as READ_SEARCH and READ_TREE report them (R41). -/
def Engine.views (e : Engine) : List ContextView :=
  e.busy.map (fun c => { phase := c.phase, attempts := c.attempts, line := c.line })

/-- The current test as READ_SEARCH reports it (R127). -/
def Test.view (x : Test) : TestView :=
  { kind := x.kind, group := x.group, observing := x.observing, m := x.m, span := x.span, counted := x.counted, lit := x.lit,
    retry := x.retry.length, awaited := x.awaited.length }

/-- The search of a tree as READ_SEARCH reports it (R127). -/
def TreeState.searchView (T : TreeState) : SearchView :=
  { rogue := T.watch.rogue, running := T.search.running, snapshot := T.search.snapshot, stack := T.search.stack,
    test := T.search.test.map Test.view, restarts := T.search.restarts, quarantined := T.search.quarantined,
    release := T.search.release, pending := T.search.pending, last := T.search.last, span := T.settings.span,
    contexts := T.engine.views }

/-- The owner's part of READ_SEARCH (R127). -/
def readSearchOwner (tree : Nat) (s : State) : State × Answer :=
  match oneTree tree with
  | none => refused s .badValue
  | some t => (s, doneWith (.search (s.tree t).searchView))

/-- READ_SEARCH (R127). -/
def execReadSearch (h : Head) (s : State) : Host.Outcome State Fault Refusal :=
  s.live fun s => s.request h .readSearch (readSearchOwner h.tree)

/-- A try of a pending release (R129): with a free context and an accepted UNMUTE the flag is cleared, a RETURN ranging begins and the line leaves
the set; else nothing changes. -/
def State.tryRelease (s : State) (t : TreeId) (l : Line) : State :=
  match (s.tree t).engine.freeContext with
  | none => s
  | some _ =>
    let (s', ok) := s.offer t (.unmute l none)
    if ok then
      let s' := s'.modSlot t l (fun x => { x with muted := false })
      ((s'.returnRanging t l).1).modSearch t (fun x => { x with pending := dropLine x.pending l })
    else s'

/-- RELEASE_TRY (R129): at a frame start a pending release is tried again. -/
def execReleaseTry (t : TreeId) (l : Line) (s : State) : Host.Outcome State Fault Refusal :=
  s.live fun s =>
    if decide (l ∈ (s.tree t).search.pending) && (s.tree t).mayTry l then (s.noteTry t l).tryRelease t l else s

/-- The owner's part of RELEASE_HOME (R129). -/
def releaseHomeOwner (tree line : Nat) (s : State) : State × Answer :=
  match treeAndLine tree line with
  | none => refused s .badValue
  | some (t, l) =>
    if (s.slot t l).state ≠ .quarantined ∨ (s.tree t).search.running = true then refused s .conflict
    else if l ∈ (s.tree t).search.pending then (s, { code := .accepted })
    else
      ((s.modSearch t (fun x => { x with pending := insertLine x.pending l })).tryRelease t l, { code := .accepted })

/-- RELEASE_HOME (R129). -/
def execReleaseHome (h : Head) (line : Nat) (s : State) : Host.Outcome State Fault Refusal :=
  s.live fun s => s.request h .releaseHome (releaseHomeOwner h.tree line)

/-- EXPEL_HOME (R130): a DISMISS is offered and, once accepted, the slot is freed and its serial barred. -/
def execExpelHome (h : Head) (line : Nat) (s : State) : Host.Outcome State Fault Refusal :=
  s.live fun s => s.request h .expelHome (dismissOwner .expelled h.tree line)

end Sys2Proof.Machine
end

