-- ==== Sys2Proof/Machine/Tree.lean ====
section
/-! DEFINITION. The requests on a tree's settings and the tree restart (R194, R195, R10, R25, R40, R71, R92, R105, R110, R111, R126, R145). -/

namespace Sys2Proof.Machine

/-! ## SET_TREE and READ_TREE (R195) -/

/-- Whether SET_TREE on a tree would break R110: the thresholds that result must keep the fall threshold below the rise threshold. -/
def State.breaksThresholds (s : State) (f : TreeFields) (t : TreeId) : Bool :=
  let c := f.apply (s.tree t).settings
  decide (c.rise ≤ c.fall)

/-- Whether SET_TREE would change the ERT of a tree that has a slot not FREE or a window record (R195). -/
def State.ertConflict (s : State) (f : TreeFields) (t : TreeId) : Bool :=
  let T := s.tree t
  decide ((f.apply T.settings).ert ≠ T.settings.ert) &&
    (allLines.any (fun l => decide ((T.slot l).state ≠ .free)) || T.engine.window.isSome)

/-- SET_TREE on one tree: the settings are written, and disabling discovery skips a SCHEDULED window (R40, R43, R195). -/
def State.setTree (s : State) (f : TreeFields) (t : TreeId) : State :=
  let scheduled := (s.tree t).engine.window.any (fun w => !w.opened)
  let s := s.modTree t (fun T => { T with settings := f.apply T.settings })
  if scheduled && !(s.tree t).settings.discovery then s.skipWindow t else s

/-- The owner's part of SET_TREE (R195): every check on every tree named, then every setting on every tree named. -/
def setTreeOwner (tree : Nat) (f : TreeFields) (s : State) : State × Answer :=
  match someTrees tree with
  | none => refused s .badValue
  | some ts =>
    if ts.any (s.breaksThresholds f) then refused s .badValue
    else if ts.any (s.ertConflict f) then refused s .conflict
    else (ts.foldl (fun s t => s.setTree f t) s, settled f.firstClamped .none)

/-- SET_TREE (R195). -/
def execSetTree (h : Head) (f : TreeFields) (s : State) : Host.Outcome State Fault Refusal :=
  s.live fun s => s.request h .setTree (setTreeOwner h.tree f)

/-- A tree as READ_TREE gives it (R195, R40, R41, R72, R92, R105). -/
def TreeState.view (T : TreeState) : TreeView :=
  { settings := T.settings, window := T.engine.window, opened := T.engine.opened, skipped := T.engine.skipped,
    taken := T.engine.taken, collisions := T.engine.collisions, deferred := T.engine.deferred, contexts := T.engine.views,
    rotation := T.planner.rotation, hold := T.planner.hold, quiet := T.planner.quiet, remainder := T.planner.remainder,
    rangings := T.planner.rangingList.length, verifies := T.planner.verifyList.length, summary := T.planner.summary,
    arrived := T.receiver.arrived, missed := T.receiver.missed, bad := T.receiver.bad, overruns := T.receiver.overruns,
    stale := T.receiver.stale, darkFrames := T.receiver.darkFrames, rogue := T.watch.rogue, first := T.watch.first,
    current := T.watch.current, last := T.watch.last, lastFirst := T.watch.lastFirst }

/-- The owner's part of READ_TREE (R195). -/
def readTreeOwner (tree : Nat) (s : State) : State × Answer :=
  match oneTree tree with
  | none => refused s .badValue
  | some t => (s, doneWith (.tree (s.tree t).view))

/-- READ_TREE (R195). -/
def execReadTree (h : Head) (s : State) : Host.Outcome State Fault Refusal :=
  s.live fun s => s.request h .readTree (readTreeOwner h.tree)

/-! ## RESTART_TREE (R194) -/

/-- The receiver at a tree restart: counts 0, no MUTE waits, the lists kept (R92). -/
def Receiver.restarted (r : Receiver) : Receiver :=
  { Receiver.reset with lists := r.lists, carryRun := r.carryRun, lastEnded := r.lastEnded }

/-- Every slot of a tree that is not FREE is freed with record kind TREE_RESTART (R25). The rule gives the slots no order; that it is line ascending,
which orders their records in the close queue and the due list, is the model's choice (log entry 53). -/
def State.freeTree (s : State) (t : TreeId) : State :=
  (allLines.filter (fun l => decide ((s.slot t l).state ≠ .free))).foldl (fun s l => s.freeSlot t l .treeRestart) s

/-- A tree restart, its parts in the order of the table of R194. -/
def State.restartTree (s : State) (t : TreeId) : State :=
  let s := s.modTree t (fun T =>
    { T with framer := { T.framer with urgent := [.dismissAll], ordinary := [] }, search := .reset })
  let s := s.freeTree t
  let first := s.nextFrame t
  let s := s.modTree t (fun T =>
    { T with engine := .reset, planner := .reset, receiver := T.receiver.restarted, watch := .reset first })
  s.restartTraffic t

/-- The owner's part of RESTART_TREE (R194). -/
def restartTreeOwner (tree : Nat) (s : State) : State × Answer :=
  match oneTree tree with
  | none => refused s .badValue
  | some t => finished (s.restartTree t)

/-- RESTART_TREE (R194). -/
def execRestartTree (h : Head) (s : State) : Host.Outcome State Fault Refusal :=
  s.live fun s => s.request h .restartTree (restartTreeOwner h.tree)

end Sys2Proof.Machine
end

