-- ==== Sys2Proof/Machine/Usage.lean ====
section
/-! DEFINITION. The requests on the usage meter and the second event (08_usage_metering_and_tariffs.md; R32). -/

namespace Sys2Proof.Machine

/-! ## The second event (R32, R33, R149, R151) -/

/-- A set clock has advanced; when its new second is that of a change point, the point is taken and every open account closes (R151). -/
def State.takePoint (s : State) : State :=
  match s.meter.clock with
  | some c => if s.meter.schedule.any (fun p => p.second = c.second) then (s.closeTrees allTrees).1 else s
  | none => s

/-- The parts of one second event: the seconds counted (R192), the directory's ageing (R33), the clock (R149) and the change point (R151). -/
def State.takeSecond (s : State) (frame : Nat) : State :=
  let s := { s with time := { s.time with secondsDue := s.time.secondsDue.drop 1, seconds := bump s.time.seconds,
                                          lastSecond := some frame } }
  let s := s.ageDirectory.tellExpiries
  (s.modMeter (fun m => { m with clock := m.clock.map Clock.tick })).takePoint

/-- SECOND_EVENT (R32): the oldest second event that has fallen and has not been taken. -/
def execSecondEvent (s : State) : Host.Outcome State Fault Refusal :=
  s.live fun s =>
    match s.time.secondsDue with
    | frame :: _ => s.takeSecond frame
    | [] => s

/-! ## Clock and tariff requests (R149, R150, R152) -/

/-- R152: a change of clock or schedule that changes the band in force closes every open account, as a change point does. -/
def State.reband (s : State) (before : Nat) : State := if s.band = before then s else (s.closeTrees allTrees).1

/-- The owner's part of SET_CLOCK (R149, R152). -/
def setClockOwner (day second : Nat) (s : State) : State × Answer :=
  let c := clampClock day second
  ((s.modMeter (fun m => { m with clock := some c.1 })).reband s.band, settled c.2 .none)

/-- SET_CLOCK (R149). -/
def execSetClock (h : Head) (day second : Nat) (s : State) : Host.Outcome State Fault Refusal :=
  s.live fun s => s.request h .setClock (setClockOwner day second)

/-- The owner's part of READ_CLOCK (R149). -/
def readClockOwner (s : State) : State × Answer := (s, doneWith (.clock s.meter.clock s.band s.time.lastSecond))

/-- READ_CLOCK (R149). -/
def execReadClock (h : Head) (s : State) : Host.Outcome State Fault Refusal :=
  s.live fun s => s.request h .readClock readClockOwner

/-- The owner's part of SET_TARIFF (R150, R152). -/
def setTariffOwner (points : List ChangePoint) (s : State) : State × Answer :=
  let c := clampPoints 1 points
  if ascending c.1 then ((s.modMeter (fun m => { m with schedule := c.1 })).reband s.band, settled c.2 .none)
  else refused s .badValue

/-- SET_TARIFF arrives (R150). A list of more than 8 points fails the form check (R187 step 2). -/
def State.requestTariff (s : State) (h : Head) (points : List ChangePoint) : State :=
  if 8 < points.length then s.unreadable h ReqKind.setTariff.byte else s.request h .setTariff (setTariffOwner points)

/-- SET_TARIFF (R150). -/
def execSetTariff (h : Head) (points : List ChangePoint) (s : State) : Host.Outcome State Fault Refusal :=
  s.live fun s => s.requestTariff h points

/-- The owner's part of READ_TARIFF (R150). -/
def readTariffOwner (s : State) : State × Answer := (s, doneWith (.tariff s.meter.schedule s.band s.meter.clock))

/-- READ_TARIFF (R150). -/
def execReadTariff (h : Head) (s : State) : Host.Outcome State Fault Refusal :=
  s.live fun s => s.request h .readTariff readTariffOwner

/-! ## Quotas (R160, R162) -/

/-- The first clamped field of SET_QUOTA: line is field 1, quota 2, warn 3 (R160, R187). -/
def quotaClamped (quota warn : Option Nat) : Option Nat :=
  firstMarked [(2, outOfRange 0 Config.byteMax quota), (3, outOfRange 1 7 warn)]

/-- SET_QUOTA without a line: the defaults of a tree; accounts already open are not changed (R160). -/
def State.setQuotaDefaults (s : State) (t : TreeId) (quota warn : Option Nat) : State :=
  s.modTree t (fun T =>
    { T with settings := { T.settings with quota := clampedOr 0 Config.byteMax T.settings.quota quota,
                                           warn := clampedOr 1 7 T.settings.warn warn } })

/-- SET_QUOTA with a line: the values of an open account, judged afresh (R160, R161). -/
def State.setQuotaHome (s : State) (t : TreeId) (l : Line) (a : Account) (quota warn : Option Nat) : State :=
  let a' := { a with quota := clampedOr 0 Config.byteMax a.quota quota, warn := clampedOr 1 7 a.warn warn }
  s.applyQuota t l a' (judgeQuota a')

/-- The owner's part of SET_QUOTA (R160). One that carries neither a quota nor a warn level is answered DONE and, with a line, judges the quota state
afresh; the rule names only requests with one of them, and this is the model's choice (log entry 61). -/
def setQuotaOwner (tree : Nat) (line quota warn : Option Nat) (s : State) : State × Answer :=
  match line with
  | none =>
    match someTrees tree with
    | none => refused s .badValue
    | some ts =>
      (ts.foldl (fun s t => s.setQuotaDefaults t quota warn) s, settled (quotaClamped quota warn) .none)
  | some n =>
    match treeAndLine tree n with
    | none => refused s .badValue
    | some (t, l) =>
      match (s.slot t l).account with
      | .opened a => (s.setQuotaHome t l a quota warn, settled (quotaClamped quota warn) .none)
      | .empty => refused s .conflict
      | .due _ _ => refused s .conflict

/-- SET_QUOTA (R160). -/
def execSetQuota (h : Head) (line quota warn : Option Nat) (s : State) : Host.Outcome State Fault Refusal :=
  s.live fun s => s.request h .setQuota (setQuotaOwner h.tree line quota warn)

/-- An open account whose period is reset: the period bytes become 0 and the quota state NORMAL (R162). -/
def Account.resetPeriod (a : Account) : Account := { a with period := 0, quotaState := .normal }

/-- Resets the period of the open accounts among the slots given, and counts them (R162). -/
def State.resetPeriods (s : State) (slots : List (TreeId × Line)) : State × Nat :=
  (slots.filter (fun p => (s.slot p.1 p.2).accountOpen)).foldl (fun (acc : State × Nat) p =>
    match (acc.1.slot p.1 p.2).account with
    | .opened a => (acc.1.setAccount p.1 p.2 (.opened a.resetPeriod), acc.2 + 1)
    | _ => acc) (s, 0)

/-- The owner's part of RESET_PERIOD (R162). -/
def resetPeriodOwner (tree : Nat) (line : Option Nat) (s : State) : State × Answer :=
  match line with
  | none =>
    match someTrees tree with
    | none => refused s .badValue
    | some ts =>
      let r := s.resetPeriods (slotsOf ts)
      (r.1, doneWith (.count r.2))
  | some n =>
    match treeAndLine tree n with
    | none => refused s .badValue
    | some (t, l) =>
      if (s.slot t l).accountOpen then
        let r := s.resetPeriods [(t, l)]
        (r.1, doneWith (.count r.2))
      else refused s .conflict

/-- RESET_PERIOD (R162). -/
def execResetPeriod (h : Head) (line : Option Nat) (s : State) : Host.Outcome State Fault Refusal :=
  s.live fun s => s.request h .resetPeriod (resetPeriodOwner h.tree line)

/-! ## Closing and reading (R154, R156, R163) -/

/-- The owner's part of CLOSE_ALL (R154). -/
def closeAllOwner (tree : Nat) (s : State) : State × Answer :=
  match someTrees tree with
  | none => refused s .badValue
  | some ts =>
    let r := s.closeTrees ts
    (r.1, doneWith (.closes r.2.1 r.2.2))

/-- CLOSE_ALL (R154). -/
def execCloseAll (h : Head) (s : State) : Host.Outcome State Fault Refusal :=
  s.live fun s => s.request h .closeAll (closeAllOwner h.tree)

/-- The part-wide summary of READ_USAGE for tree 15 (R156). A MARK record at the head that is being programmed or retried counts neither among the
queued records nor as waiting: the rule does not say, and this is the model's choice (log entry 60). -/
def State.usageSummary (s : State) : UsageSummary :=
  { queued := s.meter.queue.length, markWaits := s.meter.mark.isSome, dueLength := s.meter.due.length, clock := s.meter.clock,
    band := s.band, intervalCloses := s.meter.intervalCloses, mergedCloses := s.meter.mergedCloses,
    dueCloses := s.meter.dueCloses }

/-- An account position as READ_USAGE reports it (R163); the place in the due list counts from 0. -/
def State.usageView (s : State) (t : TreeId) (l : Line) : UsageView :=
  match (s.slot t l).account with
  | .empty => .empty
  | .opened a => .opened a (warningLevel a.warn a.quota)
  | .due r r2 => .due r r2 (s.meter.due.idxOf (t, l))

/-- The owner's part of READ_USAGE (R156, R163). A tree 0..3 without a line, and tree 15 with one, name no account (log entry 26). -/
def readUsageOwner (tree : Nat) (line : Option Nat) (s : State) : State × Answer :=
  match line with
  | none => if tree = 15 then (s, doneWith (.usageSummary s.usageSummary)) else refused s .badValue
  | some n =>
    match treeAndLine tree n with
    | none => refused s .badValue
    | some (t, l) => (s, doneWith (.usage (s.usageView t l)))

/-- READ_USAGE (R163). -/
def execReadUsage (h : Head) (line : Option Nat) (s : State) : Host.Outcome State Fault Refusal :=
  s.live fun s => s.request h .readUsage (readUsageOwner h.tree line)

end Sys2Proof.Machine
end

