-- ==== Sys2Proof/Machine/Bytes.lean ====
section
/-! DEFINITION. The link receivers byte by byte (R184, R185): hunting, gathering, judging, and the taking of the request a frame or a line makes. -/

namespace Sys2Proof.Machine

/-- A request read from the bytes of a link arrives and is taken, as its own command is (R186, R187). A command that is no request changes nothing. -/
def State.serve (s : State) (i : Instr) : State :=
  match i with
  | .identify h => s.request h .identify (identifyOwner h.link)
  | .restartPart h => s.request h .restartPart restartPartOwner
  | .setClock h day second => s.request h .setClock (setClockOwner day second)
  | .readClock h => s.request h .readClock readClockOwner
  | .setPermission h kind allow => s.request h .setPermission (setPermissionOwner kind allow)
  | .readPermission h => s.request h .readPermission readPermissionOwner
  | .setTree h f => s.request h .setTree (setTreeOwner h.tree f)
  | .readTree h => s.request h .readTree (readTreeOwner h.tree)
  | .restartTree h => s.request h .restartTree (restartTreeOwner h.tree)
  | .holdTree h => s.request h .holdTree (holdTreeOwner h.tree)
  | .releaseHold h => s.request h .releaseHold (releaseHoldOwner h.tree)
  | .setDefaultService h f => s.request h .setDefaultService (setDefaultServiceOwner h f)
  | .allowSerial h x => s.request h .allowSerial (allowOwner h.tree x)
  | .disallowSerial h x => s.request h .disallowSerial (disallowOwner x)
  | .barSerial h x => s.request h .barSerial (barOwner x)
  | .pinSerial h x pin => s.request h .pinSerial (pinOwner x pin)
  | .readDirectory h start => s.request h .readDirectory (readDirectoryOwner h.link start)
  | .readHome h line => s.request h .readHome (readHomeOwner h.tree line)
  | .dismissHome h line => s.request h .dismissHome (dismissOwner .left h.tree line)
  | .setService h line f => s.request h .setService (setServiceOwner h line f)
  | .readService h line => s.request h .readService (readServiceOwner h.tree line)
  | .startSearch h => s.request h .startSearch (startSearchOwner h.tree)
  | .abortSearch h => s.request h .abortSearch (abortSearchOwner h.tree)
  | .readSearch h => s.request h .readSearch (readSearchOwner h.tree)
  | .releaseHome h line => s.request h .releaseHome (releaseHomeOwner h.tree line)
  | .expelHome h line => s.request h .expelHome (dismissOwner .expelled h.tree line)
  | .setTariff h points => s.requestTariff h points
  | .readTariff h => s.request h .readTariff readTariffOwner
  | .setQuota h line quota warn => s.request h .setQuota (setQuotaOwner h.tree line quota warn)
  | .resetPeriod h line => s.request h .resetPeriod (resetPeriodOwner h.tree line)
  | .closeAll h => s.request h .closeAll (closeAllOwner h.tree)
  | .readUsage h line => s.request h .readUsage (readUsageOwner h.tree line)
  | .readJournal h => s.request h .readJournal (readJournalOwner h.link)
  | .seekJournal h seq => s.request h .seekJournal (seekJournalOwner h.link seq)
  | .exportDone h seq => s.request h .exportDone (exportDoneOwner seq)
  | .readJournalState h => s.request h .readJournalState (readJournalStateOwner h.link)
  | .readBuffers h line => s.request h .readBuffers (readBuffersOwner h.tree line)
  | .unknownRequest h kind => s.unreadable h kind
  | _ => s

/-- `s` with the controller-link receiver holding the bytes given after a marker. -/
def State.gather (s : State) (rx : Option (List Byte)) : State := { s with links := { s.links with frameRx := rx } }

/-- A complete frame, from its length bytes to its check, is judged (R184): one whose check (R16) fails is discarded, any other is a request. -/
def State.judgeFrame (s : State) (rx : List Byte) (len : Nat) : State :=
  if natOf (rx.drop (2 + len)) = (check16 (rx.take (2 + len))).toNat then
    match rx.drop 2 with
    | kind :: tag :: tree :: rest => (s.gather none).serve (decodeFrame kind tag tree (rest.take (len - 3)))
    | _ => s.discardFrame none
  else s.discardFrame none

/-- A byte of a frame after its marker (R184): the second length byte is judged at once, the last check byte brings the judgement of the frame. -/
def State.frameByte (s : State) (rx : List Byte) : State :=
  match rx with
  | b1 :: b2 :: rest =>
    let len := lengthOf b1 b2
    if lengthGood len = false then s.discardFrame (rehunt b1 b2)
    else if rest.length < len + 2 then s.gather (some rx)
    else s.judgeFrame rx len
  | _ => s.gather (some rx)

/-- A line with the carriage return just before its line feed dropped (R185). -/
def dropReturn (t : List Byte) : List Byte := if t.getLast? = some 0x0D#8 then t.dropLast else t

/-- A line feed ends a craft line (R185): an empty line is ignored, any other is a request. -/
def State.endLine (s : State) : State :=
  let t := dropReturn s.links.lineRx
  let s := { s with links := { s.links with lineRx := [] } }
  if t = [] then s else s.serve (decodeLine t)

/-- BYTE_RECEIVED (R184, R185): a byte received on a management link. While hunting, the controller link discards every byte but A5h; a byte within a
frame or a line extends it; the byte that ends it brings what the frame or the line makes (log entry 15). -/
def execByteReceived (link : Link) (b : Byte) (s : State) : Host.Outcome State Fault Refusal :=
  s.live fun s =>
    match link with
    | .controller =>
      match s.links.frameRx with
      | none => s.gather (huntByte b)
      | some rx => s.frameByte (rx ++ [b])
    | .craft =>
      if b = 0x0A#8 then s.endLine else { s with links := { s.links with lineRx := s.links.lineRx ++ [b] } }

end Sys2Proof.Machine
end

