-- ==== Sys2Proof/Machine/Receiver.lean ====
section
/-! DEFINITION. The burst receiver (05_burst_reception_and_the_light_watch.md, R92 to R104): unpacking bursts, grant and ranging outcomes,
overruns, cooldowns, and the light of a receive frame. -/

namespace Sys2Proof.Machine

/-! ## Unpacking a burst (R13, R95) -/

/-- Walks the packets of a byte space from after its header up to its last four bytes (R95): the packets and the bytes walked, terminator included,
or none when the walk ends as malformed. -/
def walkPackets (fuel : Nat) (body : List Byte) : Option (List Packet × Nat) :=
  match fuel, body with
  | fuel + 1, hi :: lo :: rest =>
    let len := natOf [hi, lo]
    if len = 0 then some ([], 2)
    else if 64 ≤ len ∧ len ≤ 2000 ∧ len + 2 ≤ rest.length then
      (walkPackets fuel (rest.drop len)).map (fun r => (rest.take len :: r.1, len + 2 + r.2))
    else none
  | _, _ => none

/-- What the receiver reads from a burst (R95). -/
structure Unpacked where
  good    : Bool
  backlog : Nat
  packets : List Packet
  deriving DecidableEq, Repr, Inhabited

/-- Unpacks the byte space of a burst that answers a grant for line `l`, of `space` bytes (R95). Bit 7 of the line byte is ignored (R16). -/
def unpackBurst (l : Line) (space : Nat) (bytes : List Byte) : Unpacked :=
  let backlog := natOf ((bytes.drop 1).take 3)
  let last := bytes.drop (bytes.length - 4)
  match walkPackets bytes.length ((bytes.take (bytes.length - 4)).drop 4) with
  | some (packets, walked) =>
    { good := decide (bytes.length = space) && decide (natOf last = (check32 (bytes.take (4 + walked))).toNat) &&
        decide (natOf (bytes.take 1) % 128 = l.val),
      backlog := backlog, packets := packets }
  | none => { good := false, backlog := backlog, packets := [] }

/-! ## The counters of an arrival (R58) -/

/-- The classes of an expected burst (R58). -/
inductive ArrivalClass where
  | inPlace | drifting | misplaced | missed
  deriving DecidableEq, Repr, Inhabited

/-- The class of a burst that arrived with offset error `e` (R58). -/
def classOf (e : Int) : ArrivalClass :=
  if e.natAbs ≤ 8 then .inPlace else if e.natAbs ≤ 80 then .drifting else .misplaced

/-- The sign of an offset error: late above 0, early below (R58). -/
def signOf (e : Int) : DriftSign := if 0 < e then .late else .early

/-- A drift run with one more burst of a sign (R58). -/
def DriftRun.grow (d : DriftRun) (sign : DriftSign) : DriftRun :=
  if d.length = 0 ∨ d.sign = some sign then { length := min (d.length + 1) 8, sign := some sign }
  else { length := 1, sign := some sign }

/-- Whether the drift run and the misplaced count stand still for an outcome of receive frame n: a drift DELAY is unsent, or was sent in frame n or
later (R58). -/
def DriftDelay.masks (d : DriftDelay) (n : Nat) : Bool :=
  match d with
  | .none => false
  | .unsent => true
  | .sent m => decide (n ≤ m)

/-- The counters after an arrival of receive frame n with offset error `e` (R58). -/
def Slot.arrived (x : Slot) (n : Nat) (e : Int) : Slot :=
  let x := { x with miss := 0 }
  if x.driftDelay.masks n then x
  else
    let x := { x with driftDelay := .none }
    match classOf e with
    | .inPlace => { x with drift := {}, misplaced := 0 }
    | .drifting => { x with drift := x.drift.grow (signOf e), misplaced := 0 }
    | .misplaced => { x with drift := {}, misplaced := min (x.misplaced + 1) 4 }
    | .missed => x

/-- An arrival for a slot in ACTIVE or COOLDOWN: the counters are written, and the engine reads them (R58, R61, R62). A drift offer that is held
ends when its run does. -/
def State.countArrival (s : State) (t : TreeId) (l : Line) (n : Nat) (e : Int) : State :=
  let before := s.slot t l
  let s := s.modSlot t l (fun x => x.arrived n e)
  let x := s.slot t l
  let s := if x.drift.length < 8 then s.modEngine t (fun en => en.dropDrift l) else s
  if before.driftDelay.masks n then s
  else
    match classOf e with
    | .inPlace => s
    | .drifting => if x.drift.length = 8 then s.correctDrift t l e else s
    | .misplaced => if before.misplaced < 4 ∧ x.misplaced = 4 then (s.returnRanging t l).1 else s
    | .missed => s

/-- A miss of a slot in ACTIVE or COOLDOWN whose muted flag is clear; the fourth makes it LOST (R22, R58, R59). -/
def State.countMiss (s : State) (t : TreeId) (l : Line) : State :=
  let s := s.modSlot t l (fun x => { x with miss := min (x.miss + 1) 4 })
  if (s.slot t l).miss = 4 then s.enterLost t l else s

/-! ## Outcomes of DATA and STATUS grants (R96, R97) -/

/-- Whether a listed grant is the DATA or STATUS grant of a line whose outcome has not been reported. -/
def ListedGrant.awaits (l : Line) (g : ListedGrant) : Bool :=
  decide (g.grant.line = l) && decide (g.grant.kind ≠ .ranging) && decide (g.mark = .pending)

/-- The oldest list with the grants for which `p` holds changed by `f`. -/
def Receiver.modGrant (r : Receiver) (p : ListedGrant → Bool) (f : ListedGrant → ListedGrant) : Receiver :=
  match r.lists with
  | [] => r
  | a :: rest =>
    { r with lists := { a with grants := a.grants.map (fun g => if p g then f g else g) } :: rest }

/-- The oldest list counts an outcome for its report (R104). -/
def Receiver.countReport (r : Receiver) (expected bad : Bool) : Receiver :=
  match r.lists with
  | [] => r
  | a :: rest =>
    { r with lists := { a with expected := if expected then a.expected + 1 else a.expected,
                               bad := if bad then a.bad + 1 else a.bad } :: rest }

/-- Whether a missed outcome of a slot counts as an expected burst (R104). -/
def Slot.missExpected (x : Slot) : Bool :=
  !x.muted && (x.state.inService || decide (x.state = .ranging))

/-- The packets of a good DATA burst go to the uplink queue, or are stale when no account is open (R96). -/
def State.takePackets (s : State) (t : TreeId) (l : Line) (ps : List Packet) : State :=
  if (s.slot t l).accountOpen then ps.foldl (fun s p => s.admitUplink t l p) s
  else s.modReceiver t (fun r => { r with stale := min (r.stale + ps.length) Config.countMax })

/-- The hand-offs of a found burst (R96, R97) for a grant of receive frame n. -/
def State.burstArrived (s : State) (t : TreeId) (l : Line) (n : Nat) (e : Int) (u : Unpacked) : State :=
  let s := s.modReceiver t (fun r =>
    { r.countReport true (!u.good) with arrived := bump r.arrived, bad := if u.good then r.bad else bump r.bad })
  let s := if (s.slot t l).state.inService then s.countArrival t l n e else s
  let s := s.takeVerify t l n (some (e, u.good, u.backlog))
  if u.good then
    (s.modSlot t l (fun x => { x with service := x.service.map (fun r => { r with b := u.backlog }) })).takePackets t l u.packets
  else s

/-- The hand-offs of a missed grant (R96, R97) of receive frame n. -/
def State.burstMissed (s : State) (t : TreeId) (l : Line) (n : Nat) : State :=
  let x := s.slot t l
  let s := s.modReceiver t (fun r => { r.countReport x.missExpected false with missed := bump r.missed })
  let s := if x.state.inService && !x.muted then s.countMiss t l else s
  s.takeVerify t l n none

/-- Whether a burst has a clean onset (R94): at least one SU of its guard was dark at the receiver. One whose guard was lit throughout has a lit
onset. -/
def cleanOnset (guard : GuardLight) : Bool := guard.any (fun lit => !lit)

/-- The SU in which a burst with offset error `e` for a grant at `start` begins. -/
def burstStart (start : Nat) (e : Int) : Int := (start : Int) + e / 40

/-- GRANT_OUTCOME (R96): at s + N + 8 the outcome of the line's DATA or STATUS grant in the receive frame under way is reported. A burst found more
than 8 SU from its place is not looked for (R94). The frame under way is that of the oldest list, also where a lowered ERT lets a later frame's grant
fall due first: the rules give no order there (log entry 58). -/
def execGrantOutcome (t : TreeId) (l : Line) (found : Option Burst) (s : State) : Host.Outcome State Fault Refusal :=
  s.live fun s =>
    match (s.tree t).receiver.lists with
    | [] => s
    | a :: _ =>
      match a.grants.find? (ListedGrant.awaits l) with
      | none => s
      | some g =>
        match found.filter (fun b => decide (b.e.natAbs ≤ 320)) with
        | none =>
          (s.modReceiver t (fun r => r.modGrant (ListedGrant.awaits l) (fun g => { g with mark := .missed }))).burstMissed t l
            a.plan.frame
        | some b =>
          (s.modReceiver t (fun r => r.modGrant (ListedGrant.awaits l)
            (fun g => { g with mark := .found (burstStart g.grant.start b.e) (cleanOnset b.guard) }))).burstArrived t l a.plan.frame b.e
            (unpackBurst l (5 * (g.grant.length - a.plan.overhead)) b.bytes)

/-- RANGING_OUTCOME (R98): receive time passes the end of a ranging window. A burst more than 128 SU from its place is not looked for. -/
def execRangingOutcome (t : TreeId) (l : Line) (found : Option RangingBurst) (s : State) : Host.Outcome State Fault Refusal :=
  s.live fun s =>
    let awaits := fun (g : ListedGrant) =>
      decide (g.grant.line = l) && decide (g.grant.kind = .ranging) && decide (g.mark = .pending)
    match (s.tree t).receiver.lists with
    | [] => s
    | a :: _ =>
      if a.grants.any awaits then
        let found := found.filter (fun b => decide (b.e.natAbs ≤ 5120))
        (s.modReceiver t (fun r => r.modGrant awaits (fun g =>
          { g with mark := match found with
              | some b => .found (burstStart g.grant.start b.e) false
              | none => .missed }))).takeRanging t l a.plan.frame (found.map readRanging)
      else s

/-! ## Overruns (R99 to R102) -/

/-- Whether an overrun may be charged on a listed DATA or STATUS grant of a line: not charged before, and its burst found with a clean onset, as its
outcome recorded it or, when the outcome comes second, by the light of the guard (R94, R99). -/
def ListedGrant.chargeable (l : Line) (guard : GuardLight) (g : ListedGrant) : Bool :=
  decide (g.grant.line = l) && decide (g.grant.kind ≠ .ranging) && !g.charged &&
    (match g.mark with
      | .pending => cleanOnset guard
      | .missed => false
      | .found _ clean => clean)

/-- Offers the MUTE of an overrun quarantine, which waits while the queue refuses it (R102). -/
def State.offerOverrunMute (s : State) (t : TreeId) (l : Line) : State :=
  let (s, ok) := s.offer t (.mute l none)
  s.modReceiver t (fun r => { r with muteWaits := if ok then dropLine r.muteWaits l else joinLine r.muteWaits l })

/-- An overrun is reported for a slot (R100). -/
def State.chargeOverrun (s : State) (t : TreeId) (l : Line) : State :=
  let count := fun (s : State) => s.modSlot t l (fun x => { x with overruns := min (x.overruns + 1) 255 })
  match (s.slot t l).state with
  | .active =>
    ((count s).modSlot t l (fun x => { x with state := .cooldown, cooldown := Config.cooldownFrames })).raiseSerial .overrun t l
  | .cooldown => ((count s).enterQuarantined t l .overrun).offerOverrunMute t l
  | .ranging => count s
  | .lost => count s
  | .quarantined => count s
  | .free => s
  | .assigned => s

/-- OVERRUN (R99): a clean-onset light run still lit in the SU that begins at s + N + 8 is charged to the grant's home. `guard` is the light of the
burst's guard, and `runEnd` the first SU after the run. -/
def execOverrun (t : TreeId) (l : Line) (guard : GuardLight) (runEnd : Nat) (s : State) : Host.Outcome State Fault Refusal :=
  s.live fun s =>
    match (s.tree t).receiver.lists with
    | [] => s
    | a :: _ =>
      match a.grants.find? (ListedGrant.chargeable l guard) with
      | none => s
      | some g =>
        if g.grant.start + g.grant.length + 8 < runEnd then
          (s.modReceiver t (fun r =>
            { r.modGrant (ListedGrant.chargeable l guard) (fun g => { g with charged := true }) with overruns := bump r.overruns
              })).chargeOverrun t l
        else s

/-- The cooldown of a slot ends: it becomes ACTIVE with cooldown frames 0, its other counters kept (R23, R101). -/
def Slot.endCooldown (x : Slot) : Slot := { x with state := .active, cooldown := 0 }

/-- The receiver's part of a frame start (R101): one off the cooldown frames of every slot in COOLDOWN; a slot whose frames reach 0 becomes
ACTIVE. One that an overrun has taken back to COOLDOWN between its COOLDOWN_END and this frame start is counted with the others (log entry 72). -/
def TreeState.countCooldowns (T : TreeState) : TreeState :=
  T.mapSlots (fun _ x =>
    if x.state = .cooldown then (if x.cooldown ≤ 1 then x.endCooldown else { x with cooldown := x.cooldown - 1 }) else x)

/-- COOLDOWN_END (R101, R23): the part of a frame start that takes the cooldown frames of one slot to 0, so that it becomes ACTIVE. It is due while
the slot has one frame left, and so comes before that frame start's plan; FRAME_START takes it after the plan when it has not come (log entry 12). -/
def execCooldownEnd (t : TreeId) (l : Line) (s : State) : Host.Outcome State Fault Refusal :=
  s.live fun s =>
    if (s.slot t l).state = .cooldown ∧ (s.slot t l).cooldown ≤ 1 then s.modSlot t l Slot.endCooldown else s

/-- OVERRUN_MUTE_RETRY (R102): at a frame start a refused MUTE of an overrun quarantine is offered again. -/
def execOverrunMuteRetry (t : TreeId) (l : Line) (s : State) : Host.Outcome State Fault Refusal :=
  s.live fun s =>
    if l ∈ (s.tree t).receiver.muteWaits ∧ (s.slot t l).state = .quarantined ∧ (s.slot t l).cause = some .overrun then
      s.offerOverrunMute t l
    else s

/-! ## The light of a receive frame (R93, R99, R103) -/

/-- A stretch without the part of it that another covers. -/
def stretchMinus (x a : Stretch) : List Stretch :=
  ([{ lo := x.lo, hi := min x.hi a.lo }, { lo := max x.lo a.hi, hi := x.hi }] : List Stretch).filter (fun y => y.lo < y.hi)

/-- Some stretches without the parts that others cover. -/
def stretchesMinus (xs cover : List Stretch) : List Stretch :=
  cover.foldl (fun xs a => xs.flatMap (fun x => if a.lo < a.hi then stretchMinus x a else [x])) xs

/-- Whether two stretches share an SU. -/
def stretchMeets (x y : Stretch) : Bool := decide (max x.lo y.lo < min x.hi y.hi)

/-- Where the light that stands at an SU ends: the SU itself when it is dark. -/
def litUntil (light : List Stretch) (fuel su : Nat) : Nat :=
  match fuel with
  | 0 => su
  | fuel + 1 =>
    match light.find? (fun x => decide (x.lo ≤ su) && decide (su < x.hi)) with
    | some x => litUntil light fuel x.hi
    | none => su

/-- The zones of a list that are not idle: quiet portion, ranging windows, grants, search and probe windows (R93). -/
def Plan.busyStretches (p : Plan) : List Stretch :=
  [{ lo := 0, hi := p.quiet }] ++ p.windows.map (fun w => { lo := w, hi := w + Config.rangingWindow }) ++
    p.grants.map (fun g => { lo := g.start, hi := g.start + g.length }) ++
    (if p.search then [{ lo := Config.searchStart, hi := Config.probeStart }] else []) ++
    (if p.probe then [{ lo := Config.probeStart, hi := Config.frameSU }] else [])

/-- The watched zones of a receive frame (R103): the search and probe windows, and every idle stretch of at least 32 SU but its first and last 8. -/
def Plan.watched (p : Plan) : List Stretch :=
  (if p.search then [{ lo := Config.searchStart, hi := Config.probeStart }] else []) ++
    (if p.probe then [{ lo := Config.probeStart, hi := Config.frameSU }] else []) ++
    ((stretchesMinus [{ lo := 0, hi := Config.frameSU }] p.busyStretches).filter (fun x => 32 ≤ x.hi - x.lo)).map
      (fun x => { lo := x.lo + 8, hi := x.hi - 8 })

/-- The starts of the DATA and STATUS bursts found in a list, with their onsets (R94). -/
def ArrivalList.foundBursts (a : ArrivalList) : List (Int × Bool) :=
  a.grants.filterMap (fun g =>
    match g.mark with
    | .found start clean => if g.grant.kind = .ranging then none else some (start, clean)
    | _ => none)

/-- Where a light run that stands at SU `from_` ends: at the first dark SU, at the next burst found, or at the end of the frame (R99). `own` is the
start of the run's own burst. -/
def runEndOf (light : List Stretch) (starts : List Int) (own : Int) (su : Nat) : Nat :=
  let nexts := (starts.filter (fun b => own < b)).map Int.toNat
  nexts.foldl min (min (litUntil light (light.length + 1) su) Config.frameSU)

/-- The light runs of a receive frame (R99): that carried in from the frame before, and one of every burst found with a clean onset, from the SU in
which its laser was lit, 4 SU after its start. -/
def ArrivalList.runs (a : ArrivalList) (carry : Bool) (light : List Stretch) : List Stretch :=
  let starts := a.foundBursts.map (·.1)
  (if carry then [{ lo := 0, hi := runEndOf light starts (-16) 0 }] else []) ++
    (a.foundBursts.filter (fun b => b.2)).map (fun b =>
      { lo := (b.1 + 4).toNat, hi := runEndOf light starts b.1 (b.1 + 4).toNat })

/-- Whether a receive frame is a dark-light frame (R103): unattributed light stands in a watched zone. -/
def ArrivalList.darkLight (a : ArrivalList) (carry : Bool) (light : List Stretch) : Bool :=
  (stretchesMinus light (a.runs carry light)).any (fun x => a.plan.watched.any (fun z => stretchMeets x z))

/-- Whether an attributed light run passes into the next receive frame (R99). -/
def ArrivalList.carries (a : ArrivalList) (carry : Bool) (light : List Stretch) : Bool :=
  (a.runs carry light).any (fun x => decide (x.lo < x.hi) && decide (x.hi = Config.frameSU))

/-- RECEIVE_FRAME_END (R104): the oldest receive frame ends, its list is discarded and it is reported to the light watch and the search. `light` gives
the lit SUs of the frame. It is due once every outcome of the frame has been reported and what the last report brought has been taken (log entry
13). Frames end in the order of their lists, also where a lowered ERT lets a later one end earlier (log entry 58). -/
def execReceiveFrameEnd (t : TreeId) (light : List Stretch) (s : State) : Host.Outcome State Fault Refusal :=
  s.live fun s =>
    let T := s.tree t
    match T.receiver.lists with
    | [] => s
    | a :: rest =>
      if a.grants.any (fun g => decide (g.mark = .pending)) || T.watch.periodDue.isSome ||
          T.search.test.any (fun x => x.observing && decide (x.span ≤ x.counted)) then s
      else
        let dark := a.darkLight T.receiver.carryRun light
        s.modTree t (fun T =>
          let T := { T with receiver := { T.receiver with
            lists := rest, darkFrames := if dark then bump T.receiver.darkFrames else T.receiver.darkFrames
            carryRun := a.carries T.receiver.carryRun light, lastEnded := some a.plan.frame } }
          T.takeReport { frame := a.plan.frame, dark := dark, expected := a.expected, bad := a.bad })

end Sys2Proof.Machine
end

