-- ==== Sys2Proof/Machine/Frame.lean ====
section
/-! DEFINITION. The timebase and a frame start: the line framer's selection and assembly (R1, R3, R5, R8), and what every block does at the frame
start of frame n on a tree. -/

namespace Sys2Proof.Machine

/-! ## Line-message selection (R8) -/

/-- Whether a message is the CALL whose target frame is n. -/
def LineMsg.callFor (n : Nat) : LineMsg → Bool
  | .call _ _ target => decide (target = n)
  | _ => false

/-- The ordinary entries without the CALL of target n and without the first `k` entries that are no CALL (R8). -/
def ordinaryLeft (n : Nat) : Nat → List LineMsg → List LineMsg
  | _, [] => []
  | k, m :: rest =>
    if m.callFor n then ordinaryLeft n k rest
    else if m.isCall then m :: ordinaryLeft n k rest
    else
      match k with
      | 0 => m :: ordinaryLeft n 0 rest
      | k + 1 => ordinaryLeft n k rest

/-- The messages of frame n: the urgent entries, the CALL of target n, the other ordinary entries, up to 16 (R8). -/
def Framer.selection (f : Framer) (n : Nat) : List LineMsg :=
  (f.urgent ++ f.ordinary.filter (LineMsg.callFor n) ++ f.ordinary.filter (fun m => !m.isCall)).take Config.messagesPerFrame

/-- The queue after the selection of frame n: every selected entry and the CALL of target n, sent or not, has left (R8). -/
def Framer.afterSelection (f : Framer) (n : Nat) : Framer :=
  let room := Config.messagesPerFrame - f.urgent.length
  let calls := (f.ordinary.filter (LineMsg.callFor n)).length
  { f with urgent := f.urgent.drop Config.messagesPerFrame, ordinary := ordinaryLeft n (room - calls) f.ordinary }

/-- Whether a CALL of target n is held and is not selected, so that it is withdrawn (R8). -/
def Framer.callMissed (f : Framer) (n : Nat) : Bool :=
  f.ordinary.any (LineMsg.callFor n) && !(f.selection n).any (LineMsg.callFor n)

/-- The block that offered a message is told that it has been sent in frame n (R41, R42, R52, R54, R58, R115). -/
def State.tellSent (s : State) (t : TreeId) (n : Nat) (m : LineMsg) : State :=
  match m with
  | .call _ _ _ => s.modEngine t Engine.callSent
  | .delay l _ .provisional => s.provisionalSent t l
  | .delay l _ .final => s.finalSent t l
  | .delay l _ .drift => s.modSlot t l (fun x => x.driftSent n)
  | .delay _ _ .abandoned => s
  | .mute l (some step) => s.modTree t (fun T => T.searchSent l step n)
  | .unmute l (some step) => s.modTree t (fun T => T.searchSent l step n)
  | .mute _ none => s
  | .unmute _ none => s
  | .assign _ _ => s
  | .dismiss _ => s
  | .dismissAll => s

/-- The line-message area of frame n: the selection, the withdrawal of a CALL that missed its frame, and the reports to the blocks (R8). -/
def State.sendMessages (s : State) (t : TreeId) (n : Nat) : State × List LineMsg :=
  let f := (s.tree t).framer
  let sent := f.selection n
  let s := s.modTree t (fun T => { T with framer := T.framer.afterSelection n })
  let s := if f.callMissed n then s.skipWindow t else s
  (sent.foldl (fun s m => s.tellSent t n m) s, sent)

/-! ## The frame start (R1, R3) -/

/-- The planner's part of a frame start: the hold, the staged parts and the plan (R73 to R91). -/
def State.planFrame (s : State) (t : TreeId) (n : Nat) : State × Plan :=
  let s := (s.countHold t).modTree t TreeState.applyStaged
  let r := (s.tree t).buildPlan n
  (s.modTree t (fun _ => r.1), r.2)

/-- The expected-arrival list the receiver makes of a plan (R92). -/
def ArrivalList.ofPlan (p : Plan) : ArrivalList :=
  { plan := p, grants := p.grants.map (fun g => { grant := g, mark := .pending, charged := false }), expected := 0, bad := 0 }

/-- The data area of a frame: the fill, its billing, and the pause judged on the blocks it freed (R136 to R140). -/
def State.fillFrame (s : State) (t : TreeId) (capacity : Nat) : State × List (Option Line × Packet) :=
  let r := (s.tree t).fill capacity
  (((s.modTree t (fun _ => r.1)).billFill t r.2).judgePause, r.2)

/-- The frame start of frame n on a tree: the plan, then what the usage meter (R148), the receiver (R101) and the engine (R42) count, the line
messages, the data area, and the hand-over of the plan (R3, R91). -/
def State.startFrame (s : State) (t : TreeId) (n : Nat) : State :=
  let s := s.modTree t (fun T => { T with started := true, lastTry := none })
  let (s, plan) := s.planFrame t n
  let s := (s.countOutage t).modTree t (fun T => T.countCooldowns.countSchedule)
  let (s, messages) := s.sendMessages t n
  let (s, packets) := s.fillFrame t (dataCapacity plan.grants.length messages.length)
  s.modTree t (fun T =>
    { T with
      framer := { T.framer with sent := some { frame := frameNumber n, overhead := plan.overhead, grants := plan.grants,
                                               messages := messages, packets := packets } }
      receiver := { T.receiver with lists := T.receiver.lists ++ [ArrivalList.ofPlan plan] } })

/-- A frame boundary of the timebase (R1, R32): the frame number rises by one and wraps to 0 after 4,294,967,295, every 4,000 boundaries a second
event falls, and a pause that is ON is requested again (R136). -/
def State.frameBoundary (s : State) : State :=
  let b := s.time.boundaries + 1
  let second := decide (b = Config.framesPerSecond)
  let time := s.time.advance
  let time := { time with boundaries := if second then 0 else b,
                          secondsDue := if second then time.secondsDue ++ [time.frame] else time.secondsDue }
  let trees := s.trees.map (fun (T : TreeState) => { T with started := false })
  ({ s with time := time, trees := trees }).refreshPause

/-- Whether every tree has taken the frame start of the present frame number. -/
def State.allStarted (s : State) : Bool := allTrees.all (fun t => (s.tree t).started)

/-- FRAME_START (R1): the frame-start event of one tree. The first tree to start a new frame number brings its boundary, which is due once all four
trees have started the present one. A tree whose receiver still holds three lists has a receive frame to end first (R92). -/
def execFrameStart (t : TreeId) (s : State) : Host.Outcome State Fault Refusal :=
  s.live fun s =>
    if 3 ≤ (s.tree t).receiver.lists.length then s
    else if (s.tree t).started = false then s.startFrame t s.time.count
    else if s.allStarted then s.frameBoundary.startFrame t (s.time.count + 1)
    else s

end Sys2Proof.Machine
end

