-- ==== Sys2Proof/Machine/Reset.lean ====
section
/-! DEFINITION. The part reset (R196, R193, R181, R1): what begins it, what it cuts off, and its end. -/

namespace Sys2Proof.Machine

/-- The journal's storage when a reset cuts off a program under way: its slot is left ERASED, whole or torn (R181; free value, log entry 1). -/
def State.cutProgram (s : State) : State :=
  match s.journal.program with
  | none => s
  | some p =>
    let left := remainOfProgram s.freeCount p
    ({ s with freeCount := s.freeCount + 1 }).modJournal (fun j =>
      { j with array := match left with
          | .blank => storeDel j.array (slotKey p.sector p.slot)
          | c => storePut j.array (slotKey p.sector p.slot) { state := .torn, contents := c } })

/-- The journal's storage when a reset cuts off an erase step under way: each slot of the sector is left as it was, erased or torn (R181; free value,
log entry 2). -/
def State.cutErase (s : State) : State :=
  match s.journal.batch.current with
  | none => s
  | some k =>
    let draw := s.freeCount
    ({ s with freeCount := s.freeCount + 1 }).modJournal (fun j => { j with array := leaveErase draw k j.array })

/-- A part reset begins (R196, R193): what is under way is cut off, everything volatile takes its value after a part reset, and the part is held in
reset. A sector's state, bad count and retire-on-fill mark, which R165 has the scan rebuild, keep their values until the scan ends (log entry 6). -/
def State.beginReset (s : State) : State :=
  let s := s.cutProgram.cutErase
  { State.afterReset s.pending s.freeCount s.journal.sectors s.journal.array with inReset := true }

/-- POWER_ON (R196): the part holds itself in reset until its supplies and its clock are stable. -/
def execPowerOn (s : State) : Host.Outcome State Fault Refusal := .next s.beginReset

/-- RESET_INPUT (R196): a low level of `lowNs` nanoseconds on the reset input. One of at least 1 µs causes a part reset; a shorter one may be taken
as a reset or ignored (free value, log entry 3). -/
def execResetInput (lowNs : Nat) (s : State) : Host.Outcome State Fault Refusal :=
  .next
    (if 1000 ≤ lowNs then s.beginReset
    else
      let s' := { s with freeCount := s.freeCount + 1 }
      if Config.shortPulseResets s.freeCount then s'.beginReset else s')

/-- PART_RESET (R193): the part reset that RESTART_PART asked for begins once its reply has been sent. -/
def execPartReset (s : State) : Host.Outcome State Fault Refusal :=
  s.live fun s => if s.resetDue then s.beginReset else s

/-- RESET_END (R1, R196): the reset ends, frame 0 begins and the start-up scan starts. -/
def execResetEnd (s : State) : Host.Outcome State Fault Refusal :=
  .next (if s.inReset then { s with inReset := false } else s)

end Sys2Proof.Machine
end

