-- ==== Sys2Proof/Machine/Dispatch.lean ====
section
/-! DEFINITION. One arm per command, each one direct call of its meaning. -/

namespace Sys2Proof.Machine

/-- The meaning of a command (spec/opcode_table.json): its effect on everything but the queue of waiting commands. -/
def exec (i : Instr) (s : State) : Host.Outcome State Fault Refusal :=
  match i with
  | .identify h => Sys2Proof.Machine.execIdentify h s
  | .restartPart h => Sys2Proof.Machine.execRestartPart h s
  | .setClock h day second => Sys2Proof.Machine.execSetClock h day second s
  | .readClock h => Sys2Proof.Machine.execReadClock h s
  | .setPermission h kind allow => Sys2Proof.Machine.execSetPermission h kind allow s
  | .readPermission h => Sys2Proof.Machine.execReadPermission h s
  | .setTree h f => Sys2Proof.Machine.execSetTree h f s
  | .readTree h => Sys2Proof.Machine.execReadTree h s
  | .restartTree h => Sys2Proof.Machine.execRestartTree h s
  | .holdTree h => Sys2Proof.Machine.execHoldTree h s
  | .releaseHold h => Sys2Proof.Machine.execReleaseHold h s
  | .setDefaultService h f => Sys2Proof.Machine.execSetDefaultService h f s
  | .allowSerial h x => Sys2Proof.Machine.execAllowSerial h x s
  | .disallowSerial h x => Sys2Proof.Machine.execDisallowSerial h x s
  | .barSerial h x => Sys2Proof.Machine.execBarSerial h x s
  | .pinSerial h x pin => Sys2Proof.Machine.execPinSerial h x pin s
  | .readDirectory h start => Sys2Proof.Machine.execReadDirectory h start s
  | .readHome h line => Sys2Proof.Machine.execReadHome h line s
  | .dismissHome h line => Sys2Proof.Machine.execDismissHome h line s
  | .setService h line f => Sys2Proof.Machine.execSetService h line f s
  | .readService h line => Sys2Proof.Machine.execReadService h line s
  | .startSearch h => Sys2Proof.Machine.execStartSearch h s
  | .abortSearch h => Sys2Proof.Machine.execAbortSearch h s
  | .readSearch h => Sys2Proof.Machine.execReadSearch h s
  | .releaseHome h line => Sys2Proof.Machine.execReleaseHome h line s
  | .expelHome h line => Sys2Proof.Machine.execExpelHome h line s
  | .setTariff h points => Sys2Proof.Machine.execSetTariff h points s
  | .readTariff h => Sys2Proof.Machine.execReadTariff h s
  | .setQuota h line quota warn => Sys2Proof.Machine.execSetQuota h line quota warn s
  | .resetPeriod h line => Sys2Proof.Machine.execResetPeriod h line s
  | .closeAll h => Sys2Proof.Machine.execCloseAll h s
  | .readUsage h line => Sys2Proof.Machine.execReadUsage h line s
  | .readJournal h => Sys2Proof.Machine.execReadJournal h s
  | .seekJournal h seq => Sys2Proof.Machine.execSeekJournal h seq s
  | .exportDone h seq => Sys2Proof.Machine.execExportDone h seq s
  | .readJournalState h => Sys2Proof.Machine.execReadJournalState h s
  | .readBuffers h line => Sys2Proof.Machine.execReadBuffers h line s
  | .unknownRequest h kind => Sys2Proof.Machine.execUnknownRequest h kind s
  | .frameDiscarded why => Sys2Proof.Machine.execFrameDiscarded why s
  | .byteGapTimeout => Sys2Proof.Machine.execByteGapTimeout s
  | .busyReply h kind => Sys2Proof.Machine.execBusyReply h kind s
  | .transmitComplete link => Sys2Proof.Machine.execTransmitComplete link s
  | .powerOn => Sys2Proof.Machine.execPowerOn s
  | .resetInput lowNs => Sys2Proof.Machine.execResetInput lowNs s
  | .resetEnd => Sys2Proof.Machine.execResetEnd s
  | .partReset => Sys2Proof.Machine.execPartReset s
  | .frameStart t => Sys2Proof.Machine.execFrameStart t s
  | .holdLapsed t => Sys2Proof.Machine.execHoldLapsed t s
  | .cooldownEnd t l => Sys2Proof.Machine.execCooldownEnd t l s
  | .discoveryWindowOpen t => Sys2Proof.Machine.execDiscoveryWindowOpen t s
  | .callReoffer t => Sys2Proof.Machine.execCallReoffer t s
  | .enrolMessageRetry t l => Sys2Proof.Machine.execEnrolMessageRetry t l s
  | .dismissRetry t l => Sys2Proof.Machine.execDismissRetry t l s
  | .driftDelayRetry t l => Sys2Proof.Machine.execDriftDelayRetry t l s
  | .holdExpiryRetry t l => Sys2Proof.Machine.execHoldExpiryRetry t l s
  | .returnRangingRetry t l => Sys2Proof.Machine.execReturnRangingRetry t l s
  | .overrunMuteRetry t l => Sys2Proof.Machine.execOverrunMuteRetry t l s
  | .searchOfferRetry t => Sys2Proof.Machine.execSearchOfferRetry t s
  | .releaseListDrain t => Sys2Proof.Machine.execReleaseListDrain t s
  | .releaseTry t l => Sys2Proof.Machine.execReleaseTry t l s
  | .grantOutcome t l found => Sys2Proof.Machine.execGrantOutcome t l found s
  | .overrun t l clean runEnd => Sys2Proof.Machine.execOverrun t l clean runEnd s
  | .rangingOutcome t l found => Sys2Proof.Machine.execRangingOutcome t l found s
  | .hello t offset bytes => Sys2Proof.Machine.execHello t offset bytes s
  | .quietWindowEnd t => Sys2Proof.Machine.execQuietWindowEnd t s
  | .receiveFrameEnd t light => Sys2Proof.Machine.execReceiveFrameEnd t light s
  | .watchPeriodEnd t => Sys2Proof.Machine.execWatchPeriodEnd t s
  | .spanEnd t => Sys2Proof.Machine.execSpanEnd t s
  | .secondEvent => Sys2Proof.Machine.execSecondEvent s
  | .refusedEntryExpiry x => Sys2Proof.Machine.execRefusedEntryExpiry x s
  | .holdExpiry t l => Sys2Proof.Machine.execHoldExpiry t l s
  | .trunkPacketArrival t l broadcast bytes => Sys2Proof.Machine.execTrunkPacketArrival t l broadcast bytes s
  | .trunkTransmitComplete => Sys2Proof.Machine.execTrunkTransmitComplete s
  | .trunkPauseRequest duration => Sys2Proof.Machine.execTrunkPauseRequest duration s
  | .trunkHoldEnd => Sys2Proof.Machine.execTrunkHoldEnd s
  | .programStart => Sys2Proof.Machine.execProgramStart s
  | .programVerify sector slot => Sys2Proof.Machine.execProgramVerify sector slot s
  | .programTimeout sector slot => Sys2Proof.Machine.execProgramTimeout sector slot s
  | .acceptWindowEnd => Sys2Proof.Machine.execAcceptWindowEnd s
  | .eraseComplete sector => Sys2Proof.Machine.execEraseComplete sector s
  | .eraseTimeout sector => Sys2Proof.Machine.execEraseTimeout sector s
  | .suspendEvent => Sys2Proof.Machine.execSuspendEvent s
  | .scanComplete => Sys2Proof.Machine.execScanComplete s
  | .byteReceived link b => Sys2Proof.Machine.execByteReceived link b s

end Sys2Proof.Machine
end

