-- ==== Sys2Proof/Machine/Step.lean ====
section
/-! DEFINITION. One step: the command at the front of the queue is taken. -/

namespace Sys2Proof.Machine

/-- The state without the commands that are waiting. -/
def State.withPending (s : State) (p : List Instr) : State := { s with pending := p }

/-- One step: the command at the front of the queue is run on the state with the queue's rest; on an empty queue the block idles (log entry 18). -/
def step (s : State) : Host.Outcome State Fault Refusal :=
  match s.pending with
  | [] => .next s
  | c :: rest => exec c (s.withPending rest)

/-- `s` with the command a word of the opcode table spells at the front of its queue; the table gives no row any bits, so no word spells one and `s`
is unchanged. -/
def State.withFetchWord (s : State) (nbits w : Nat) : State :=
  match decodeTableWord nbits w with
  | some c => s.withPending (c :: s.pending)
  | none => s

end Sys2Proof.Machine
end

