-- ==== Sys2Proof/Machine/Layout.lean ====
section
/-! DEFINITION. The layouts of what the part sends and stores (R3 to R6, R16, R187, R188, R191; Tables 1-3 to 1-9): downstream frames,
controller-link frames with reply and notice bodies, and journal records; the reply lines of the craft link stand in Machine/CraftReply.lean. No
command reads these bytes: a test or a claim lays out what State holds. The order and the widths of reply values where the rules leave them open are
log entry 16. -/

namespace Sys2Proof.Machine

/-! ## Downstream frames (Tables 1-3 to 1-6) -/

/-- The place of a named value in its list, in one byte (R188). -/
def placeOf {α : Type} [DecidableEq α] (names : List α) (a : α) : List Byte := bytesOf 1 (names.idxOf a)

/-- Some bytes followed by their 16-bit check over all but the first `skip` of them (R16). -/
def withCheck16 (skip : Nat) (bs : List Byte) : List Byte := bs ++ bytesOf 2 (check16 (bs.drop skip)).toNat

/-- The code of a grant kind (Table 1-4). -/
def GrantKind.code : GrantKind → Nat
  | .data => 0
  | .status => 1
  | .ranging => 2

/-- A grant-map entry: line index (7 bits), kind (2), start offset (14), length (14), O (7), four zero bits (Table 1-4). -/
def Grant.bytes (g : Grant) (overhead : Nat) : List Byte :=
  bytesOf 6 ((((g.line.val * 4 + g.kind.code) * 2 ^ 14 + g.start) * 2 ^ 14 + g.length) * 2 ^ 11 + overhead * 16)

/-- Kind, address and body of a line message (Table 1-5). -/
def LineMsg.parts : LineMsg → Nat × Nat × List Byte
  | .call start length _ => (1, 128, bytesOf 2 start ++ bytesOf 2 length)
  | .assign x l => (2, 128, bytesOf 6 x.toNat ++ bytesOf 1 l.val)
  | .delay l v _ => (3, l.val, bytesOf 4 v)
  | .mute l _ => (4, l.val, [])
  | .unmute l _ => (5, l.val, [])
  | .dismiss l => (6, l.val, [])
  | .dismissAll => (7, 128, [])

/-- A line message of 16 bytes, its unused body bytes zero (Table 1-5). -/
def LineMsg.bytes (m : LineMsg) : List Byte :=
  let (kind, address, body) := m.parts
  withCheck16 0 (bytesOf 1 kind ++ bytesOf 1 address ++ body ++ List.replicate (12 - body.length) 0)

/-- A packet in the data area with its tag: the broadcast flag with line index 127, or the line index (Table 1-6, R5). -/
def packetBytes (p : Option Line × Packet) : List Byte :=
  let address := match p.1 with
    | some l => l.val
    | none => 255
  bytesOf 1 address ++ [0] ++ bytesOf 2 p.2.length ++ p.2

/-- A downstream frame as sent on tree `t`: header, grant map, line messages, data area (R3, Table 1-3). -/
def DownFrame.bytes (f : DownFrame) (t : TreeId) : List Byte :=
  let area := f.packets.flatMap packetBytes
  withCheck16 4 (bytesOf 4 0x5B1E7A93 ++ bytesOf 4 f.frame ++ bytesOf 1 t.val ++ bytesOf 1 f.grants.length ++
    bytesOf 1 f.messages.length ++ bytesOf 3 area.length) ++
    f.grants.flatMap (fun g => g.bytes f.overhead) ++ f.messages.flatMap LineMsg.bytes ++ area

/-! ## Journal records (Table 1-9) -/

/-- One bit of a field. -/
def bit (b : Bool) : Nat := if b then 1 else 0

/-- The code of a record kind (Table 1-9). -/
def RecordKind.code : RecordKind → Nat
  | .interval => 0
  | .final => 1
  | .treeRestart => 2
  | .mark => 3

/-- The identity field: tree, line, kind, band, flags and six zero bits (Table 1-9). -/
def Record.identity (r : Record) : Nat :=
  ((((r.tree.val * 128 + r.line.val) * 4 + r.kind.code) * 8 + r.band) * 16 +
    (8 * bit r.clockUnset + 4 * bit r.merged + 2 * bit r.throttled + bit r.moved)) * 64

/-- A journal record of 40 bytes with its sequence number (Table 1-9). -/
def Record.bytes (r : Record) (seq : Nat) : List Byte :=
  withCheck16 0 (bytesOf 4 seq ++ bytesOf 3 r.identity ++ bytesOf 6 r.serial.toNat ++
    bytesOf 9 ((r.start * 2 ^ 33 + r.stop) * 64) ++ bytesOf 6 r.counts.up ++ bytesOf 6 r.counts.down ++
    bytesOf 4 r.counts.outage)

/-! ## Reply values (R188) -/

/-- A yes-or-no value. -/
def flagByte (b : Bool) : List Byte := bytesOf 1 (bit b)

/-- An optional value, led by its presence byte. -/
def optionBytes {α : Type} (f : α → List Byte) : Option α → List Byte
  | some a => [1] ++ f a
  | none => [0]

/-- A list, led by its count in `n` bytes. -/
def listBytes {α : Type} (n : Nat) (f : α → List Byte) (xs : List α) : List Byte := bytesOf n xs.length ++ xs.flatMap f

/-- The states of a slot in the order of Table 2-1. -/
def homeStates : List HomeState := [.free, .assigned, .ranging, .active, .cooldown, .lost, .quarantined]

/-- Lines in one byte each, led by their count. -/
def lineBytes (ls : List Line) : List Byte := listBytes 1 (fun l => bytesOf 1 l.val) ls

/-- A day clock. -/
def Clock.bytes (c : Clock) : List Byte := bytesOf 2 c.day ++ bytesOf 3 c.second

/-- A directory entry: serial, state, and the fields Table 2-3 gives that state. -/
def DirEntry.bytes (e : DirEntry) : List Byte :=
  let tree := fun (t : TreeId) => bytesOf 1 t.val
  let age := fun (n : Nat) => bytesOf 2 n
  bytesOf 6 e.serial.toNat ++
    (match e.body with
    | .expected b pin => [0] ++ optionBytes tree b ++ flagByte pin
    | .present t l (.listed b) pin a => [1] ++ tree t ++ bytesOf 1 l.val ++ [0] ++ optionBytes tree b ++ flagByte pin ++ optionBytes age a
    | .present t l .opened pin a => [1] ++ tree t ++ bytesOf 1 l.val ++ [1] ++ flagByte pin ++ optionBytes age a
    | .refused t a => [2] ++ tree t ++ age a
    | .barred a => [3] ++ optionBytes age a)

/-- READ_HOME's values (R24). -/
def HomeView.bytes (v : HomeView) : List Byte :=
  placeOf homeStates v.state ++ optionBytes (placeOf [.overrun, .search]) v.cause ++ optionBytes (fun x => bytesOf 6 x.toNat) v.serial ++
    bytesOf 3 v.eqd ++ bytesOf 1 v.miss ++ bytesOf 1 v.drift.length ++ optionBytes (placeOf [.late, .early]) v.drift.sign ++
    bytesOf 1 v.misplaced ++ bytesOf 1 v.overruns ++ bytesOf 2 v.cooldown ++ flagByte v.muted ++ bytesOf 2 v.sinceGrant ++
    optionBytes (bytesOf 2) v.holdLeft ++ flagByte v.closeDue

/-- The six service fields. -/
def ServiceFields.bytes (f : ServiceFields) : List Byte :=
  bytesOf 2 f.cr ++ bytesOf 2 f.pr ++ bytesOf 3 f.ba ++ bytesOf 2 f.tr ++ bytesOf 1 f.w ++ bytesOf 1 f.dw

/-- READ_SERVICE's values (R69). -/
def ServiceView.bytes (v : ServiceView) : List Byte :=
  v.live.bytes ++ bytesOf 3 v.k ++ bytesOf 3 v.b ++ bytesOf 2 v.crEff ++ bytesOf 2 v.prEff ++ flagByte v.throttled ++
    optionBytes (bytesOf 2) v.staged.cr ++ optionBytes (bytesOf 2) v.staged.pr ++ optionBytes (bytesOf 3) v.staged.ba ++
    optionBytes (bytesOf 2) v.staged.tr ++ optionBytes (bytesOf 1) v.staged.w ++ optionBytes (bytesOf 1) v.staged.dw ++ flagByte v.waiting

/-- A context as READ_TREE and READ_SEARCH give it (R41). -/
def ContextView.bytes (c : ContextView) : List Byte :=
  placeOf [.assignWait, .delayWait, .rangeWait, .finalWait, .verifyWait] c.phase ++ bytesOf 1 c.attempts ++ bytesOf 1 c.line.val

/-- The tree rogue states in the order of R105. -/
def rogueStates : List Rogue := [.clear, .suspect, .searching, .foreign, .unresolved]

/-- The counts of a watch period. -/
def WatchCounts.bytes (c : WatchCounts) : List Byte := bytesOf 1 c.d ++ bytesOf 2 c.n ++ bytesOf 2 c.bb ++ bytesOf 1 c.frames

/-- The twelve settings of a tree in the order of R195. -/
def Settings.bytes (c : Settings) : List Byte :=
  placeOf [.listed, .opened] c.mode ++ flagByte c.discovery ++ bytesOf 2 c.di ++ bytesOf 2 c.hold ++ bytesOf 1 c.reach ++ bytesOf 2 c.ert ++
    bytesOf 1 c.overhead ++ bytesOf 1 c.statusInterval ++ bytesOf 1 c.rise ++ bytesOf 1 c.fall ++ flagByte c.autoSearch ++ bytesOf 1 c.span

/-- A pending window or a carried remainder: its frame and its length. -/
def stretchBytes (p : Nat × Nat) : List Byte := bytesOf 4 p.1 ++ bytesOf 2 p.2

/-- The enrolment window record (R40). -/
def Window.bytes (w : Window) : List Byte := bytesOf 4 w.target ++ bytesOf 1 w.reach ++ bytesOf 2 w.ert ++ flagByte w.opened

/-- The summary of the last plan (R72). -/
def Summary.bytes (x : Summary) : List Byte :=
  bytesOf 4 x.frame ++ bytesOf 2 x.span ++ bytesOf 1 x.dataGrants ++ bytesOf 1 x.statusGrants ++ bytesOf 1 x.rangingGrants ++
    bytesOf 2 x.granted ++ bytesOf 2 x.dark ++ bytesOf 1 x.waited ++ bytesOf 1 x.dropped

/-- READ_TREE's values (R195, R40, R41, R72, R92, R105). -/
def TreeView.bytes (v : TreeView) : List Byte :=
  v.settings.bytes ++ optionBytes Window.bytes v.window ++
    [v.opened, v.skipped, v.taken, v.collisions, v.deferred].flatMap (bytesOf 4) ++ listBytes 1 ContextView.bytes v.contexts ++
    bytesOf 1 v.rotation.val ++ optionBytes (bytesOf 2) v.hold ++ optionBytes stretchBytes v.quiet ++ optionBytes stretchBytes v.remainder ++
    bytesOf 1 v.rangings ++ bytesOf 1 v.verifies ++ v.summary.bytes ++
    [v.arrived, v.missed, v.bad, v.overruns, v.stale, v.darkFrames].flatMap (bytesOf 4) ++ placeOf rogueStates v.rogue ++ bytesOf 4 v.first ++
    v.current.bytes ++ v.last.bytes ++ bytesOf 4 v.lastFirst

/-- A group of snapshot positions. -/
def Group.bytes (g : Group) : List Byte := bytesOf 1 g.lo ++ bytesOf 1 g.hi

/-- The current test (R127). -/
def TestView.bytes (x : TestView) : List Byte :=
  placeOf [.verify, .split, .single, .confirm] x.kind ++ x.group.bytes ++ flagByte x.observing ++ optionBytes (bytesOf 4) x.m ++
    bytesOf 1 x.span ++ bytesOf 1 x.counted ++ bytesOf 1 x.lit ++ bytesOf 1 x.retry ++ bytesOf 1 x.awaited

/-- Search outcomes in the order of R117, where DONE has place 0; the list of R111 begins with none, by which it would have place 1. The model takes
R117's places in the notice SEARCH_DONE and in READ_SEARCH (log entry 74). -/
def searchOutcomes : List SearchOutcome := [.done, .foreign, .unresolved, .aborted]

/-- The last outcome of a search (R111). READ_SEARCH leads it by a presence byte, 0 for none (log entry 74). -/
def LastSearch.bytes (x : LastSearch) : List Byte :=
  placeOf searchOutcomes x.outcome ++ optionBytes (bytesOf 4) x.frame ++ bytesOf 1 x.quarantined ++ bytesOf 1 x.restarts

/-- READ_SEARCH's values (R127). -/
def SearchView.bytes (v : SearchView) : List Byte :=
  placeOf rogueStates v.rogue ++ flagByte v.running ++ lineBytes v.snapshot ++ listBytes 1 Group.bytes v.stack ++
    optionBytes TestView.bytes v.test ++ bytesOf 1 v.restarts ++ bytesOf 1 v.quarantined ++ lineBytes v.release ++ lineBytes v.pending ++
    optionBytes LastSearch.bytes v.last ++ bytesOf 1 v.span ++ listBytes 1 ContextView.bytes v.contexts

/-- The counts of an account or its carries. -/
def Counts.bytes (c : Counts) : List Byte := bytesOf 6 c.up ++ bytesOf 6 c.down ++ bytesOf 4 c.outage

/-- An account position (R163). No rule gives the byte that tells what the position holds, 0 empty, 1 an open account and 2 a close due, nor what
stands for the sequence number that the records of a close due do not have yet: the model lays them out with 0, and the record check over that (log
entry 76). -/
def UsageView.bytes : UsageView → List Byte
  | .empty => [0]
  | .opened a level =>
    [1] ++ bytesOf 6 a.serial.toNat ++ bytesOf 5 a.start ++ bytesOf 1 a.band ++ flagByte a.clockUnset ++ flagByte a.merged ++
      flagByte a.throttled ++ a.counts.bytes ++ bytesOf 6 a.period ++ bytesOf 6 a.quota ++ bytesOf 1 a.warn ++ bytesOf 6 level ++
      placeOf [.normal, .warned, .throttled] a.quotaState
  | .due r second place => [2] ++ r.bytes 0 ++ optionBytes (fun (x : Record) => x.bytes 0) second ++ bytesOf 2 place

/-- The part-wide summary of READ_USAGE (R156). -/
def UsageSummary.bytes (v : UsageSummary) : List Byte :=
  bytesOf 2 v.queued ++ flagByte v.markWaits ++ bytesOf 2 v.dueLength ++ optionBytes Clock.bytes v.clock ++ bytesOf 1 v.band ++
    [v.intervalCloses, v.mergedCloses, v.dueCloses].flatMap (bytesOf 4)

/-- Journal conditions in the order of R166. -/
def journalConditions : List Condition := [.scanning, .ready, .full, .stopped]

/-- One sector (R183). -/
def SectorView.bytes (v : SectorView) : List Byte :=
  placeOf [.erased, .inUse, .full, .erasePending, .retired] v.state ++ bytesOf 2 v.valid ++ optionBytes (bytesOf 4) v.lowest ++
    optionBytes (bytesOf 4) v.highest ++ bytesOf 2 v.bad ++ flagByte v.retireOnFill

/-- READ_JOURNAL_STATE's values (R183). -/
def JournalView.bytes (v : JournalView) : List Byte :=
  let sector := fun (k : Fin 32) => bytesOf 1 k.val
  placeOf journalConditions v.condition ++ optionBytes (placeOf [.noSector, .stopped]) v.cause ++ optionBytes sector v.writeSector ++
    bytesOf 2 v.writePos ++ optionBytes (bytesOf 1) v.reserve ++ bytesOf 4 v.next ++ bytesOf 4 v.highest ++ bytesOf 4 v.exportMark ++
    bytesOf 4 v.requested ++ optionBytes (fun (p : Nat × Fin 32 × Nat) => bytesOf 4 p.1 ++ sector p.2.1 ++ bytesOf 2 p.2.2) v.program ++
    placeOf [.none, .gathering, .erasing, .suspending, .suspended] v.batch ++ listBytes 1 sector v.list ++ optionBytes sector v.current ++
    bytesOf 1 v.suspendCount ++ v.sectors.flatMap SectorView.bytes ++ bytesOf 4 v.cursor ++
    [v.programmed, v.failures, v.erased, v.eraseFails, v.suspends].flatMap (bytesOf 4)

/-- READ_BUFFERS' items of one tree (R144). -/
def BufferTree.bytes (v : BufferTree) : List Byte :=
  [v.downHold, v.upHold, v.broadcastBlocks, v.broadcastPackets, v.uplinkBlocks, v.uplinkPackets].flatMap (bytesOf 2) ++
    [v.noHome, v.broadcastDrops, v.flushed, v.uplinkDrops].flatMap (bytesOf 4)

/-- READ_BUFFERS' items of one home (R144). -/
def BufferHome.bytes (v : BufferHome) : List Byte :=
  bytesOf 2 v.blocks ++ bytesOf 2 v.packets ++ bytesOf 3 v.deficit ++ bytesOf 2 v.allowance ++ bytesOf 4 v.tailDrops

/-- READ_BUFFERS' values (R144). -/
def BuffersView.bytes (v : BuffersView) : List Byte :=
  let common := fun (pauseOn held : Bool) (pointer : TreeId) (malformed requests : Nat) =>
    flagByte pauseOn ++ flagByte held ++ bytesOf 1 pointer.val ++ bytesOf 4 malformed ++ bytesOf 4 requests
  (v.downFree ++ v.upFree).flatMap (bytesOf 2) ++ bytesOf 2 v.sharedFree ++
    (match v.scope with
    | .part p h t m r => common p h t m r ++ v.trees.flatMap BufferTree.bytes
    | .tree p h t m r rotation turn queues home =>
      common p h t m r ++ v.trees.flatMap BufferTree.bytes ++ bytesOf 1 rotation.val ++ flagByte turn ++ bytesOf 1 queues ++
        (match home with
        | some x => x.bytes
        | none => []))

/-- The counts of one link (R192). -/
def LinkCounts.bytes (c : LinkCounts) : List Byte := [c.busyAnswers, c.busyDiscards, c.denied].flatMap (bytesOf 4)

/-- IDENTIFY's values: the vendor and part names, the revision, the constants, and what R192 lists. The seconds counted have 4 bytes, which hold their
range (log entry 75). -/
def IdentifyView.bytes (v : IdentifyView) : List Byte :=
  ascii "Twezora" ++ ascii "BLT4128" ++ bytesOf 1 2 ++ bytesOf 1 4 ++ bytesOf 1 128 ++ bytesOf 2 1024 ++ bytesOf 2 32768 ++ bytesOf 1 32 ++
    bytesOf 2 512 ++ bytesOf 4 v.frame ++ bytesOf 4 v.seconds ++ placeOf [.controller, .craft] v.link ++ bytesOf 1 v.level ++
    v.controller.bytes ++ v.craft.bytes ++ bytesOf 4 v.discarded

/-- A change point. -/
def ChangePoint.bytes (p : ChangePoint) : List Byte := bytesOf 3 p.second ++ bytesOf 1 p.band

/-- The values of a reply, in the order of the request's rule (R187, R188). A count has 2 bytes in every reply, also that of SET_SERVICE and of
SET_DEFAULT_SERVICE, which is at most 6: the model's choice (log entry 16). -/
def Values.bytes : Values → List Byte
  | .none => []
  | .identify v => v.bytes
  | .clock c band last => optionBytes Clock.bytes c ++ bytesOf 1 band ++ optionBytes (bytesOf 4) last
  | .permissions es => listBytes 1 (fun (e : ReqKind × Bool × Bool) => [e.1.byte] ++ flagByte e.2.1 ++ flagByte e.2.2) es
  | .tree v => v.bytes
  | .count n => bytesOf 2 n
  | .directory es cursor => listBytes 1 (fun (e : Nat × DirEntry) => bytesOf 2 e.1 ++ e.2.bytes) es ++ bytesOf 2 cursor
  | .home v => v.bytes
  | .service v => v.bytes
  | .search v => v.bytes
  | .tariff ps band c => listBytes 1 ChangePoint.bytes ps ++ bytesOf 1 band ++ optionBytes Clock.bytes c
  | .closes closed merged => bytesOf 2 closed ++ bytesOf 2 merged
  | .usage v => v.bytes
  | .usageSummary v => v.bytes
  | .journal rs cursor => listBytes 1 (fun (r : Nat × Record) => r.2.bytes r.1) rs ++ bytesOf 4 cursor
  | .seek cursor stands => bytesOf 4 cursor ++ flagByte stands
  | .mark n => bytesOf 4 n
  | .journalState v => v.bytes
  | .buffers v => v.bytes

/-! ## Controller-link frames (Table 1-8, R187, R191) -/

/-- A controller-link frame (Table 1-8): marker, length, kind, tag, tree, body, frame check over the length field through the end of the body. -/
def linkFrame (kind tag : Byte) (tree : Nat) (body : List Byte) : List Byte :=
  withCheck16 1 ([0xA5#8] ++ bytesOf 2 (body.length + 3) ++ [kind, tag] ++ bytesOf 1 tree ++ body)

/-- The byte of a reply code (R187). -/
def Code.byte : Code → Nat
  | .done => 0 | .accepted => 1 | .clamped => 2 | .busy => 3 | .denied => 4 | .badForm => 5 | .badValue => 6 | .notFound => 7
  | .conflict => 8 | .full => 9

/-- The body of a reply: the code, the position of the first clamped field for CLAMPED, and the values (R187). -/
def Reply.body (r : Reply) : List Byte :=
  bytesOf 1 r.code.byte ++ (match r.field with
    | some p => bytesOf 1 p
    | none => []) ++ r.values.bytes

/-- A reply frame: the kind of the request plus 40h, its tag and its tree field (R187). -/
def Reply.frame (r : Reply) : List Byte := linkFrame (r.kind + 0x40#8) r.tag r.tree r.body

/-- The notice kinds in the order of their codes, from 81h (Table 10-1). -/
def noticeKinds : List NoticeKind :=
  [.partReady, .homeActive, .homeLost, .homeGone, .enrolFailed, .outOfReach, .treeFull, .directoryFull, .serialRefused, .serialElsewhere,
   .overrun, .quarantined, .darkLight, .searchDone, .quotaWarning, .quotaReached, .holdLapsed, .sectorRetired, .journalFull]

/-- The code of a notice kind (Table 10-1). -/
def NoticeKind.byte (k : NoticeKind) : Byte := BitVec.ofNat 8 (0x81 + noticeKinds.idxOf k)

/-- The details of a notice (Table 10-1). The rules code request bodies and replies (R188), and not these: the widths of the fields, and a presence
byte before the prior line of HOME_ACTIVE, are the model's (log entry 78). -/
def Details.bytes : Details → List Byte
  | .none => []
  | .partReady c highest mark => placeOf journalConditions c ++ bytesOf 4 highest ++ bytesOf 4 mark
  | .homeActive x k d prior =>
    bytesOf 6 x.toNat ++ placeOf [.new, .returning] k ++ bytesOf 3 d ++ optionBytes (fun (l : Line) => bytesOf 1 l.val) prior
  | .serial x => bytesOf 6 x.toNat
  | .elsewhere x t => bytesOf 6 x.toNat ++ bytesOf 1 t.val
  | .quarantined x c => bytesOf 6 x.toNat ++ placeOf [.overrun, .search] c
  | .darkLight d n bb => bytesOf 1 d ++ bytesOf 2 n ++ bytesOf 2 bb
  | .searchDone o q r => placeOf searchOutcomes o ++ bytesOf 1 q ++ bytesOf 1 r
  | .sectorRetired k c => bytesOf 1 k.val ++ placeOf [.fill, .erase] c
  | .journalFull c => placeOf [.noSector, .stopped] c

/-- The key line of a notice: 0..127, FEh for all, FFh for none (R191). -/
def KeyLine.byte : KeyLine → Byte
  | .line l => BitVec.ofNat 8 l.val
  | .all => 0xFE#8
  | .none => 0xFF#8

/-- The tree field of a notice: the key tree, or 15 for a part notice (R191). -/
def Notice.treeField (n : Notice) : Nat :=
  match n.tree with
  | some t => t.val
  | none => 15

/-- A notice frame: the notice code, tag 0, the key tree or 15, and a body of key line, count and details (R191). -/
def Notice.frame (n : Notice) : List Byte :=
  linkFrame n.kind.byte 0 n.treeField ([n.line.byte] ++ bytesOf 2 n.count ++ n.details.bytes)

/-- What the controller link sends of an item. -/
def TxItem.frame : TxItem → List Byte
  | .reply r => r.frame
  | .notice n => n.frame

/-! ## Request bodies (R188, the catalogue of R189) -/

/-- A number of one byte, of two, and so on, as an optional field. -/
def optionNum (n : Nat) (v : Option Nat) : List Byte := optionBytes (bytesOf n) v

/-- The six optional service fields of a request (Table 4-1, R67, R70). -/
def serviceArguments (f : ServiceChange) : List Byte :=
  optionNum 2 f.cr ++ (optionNum 2 f.pr ++ (optionNum 3 f.ba ++ (optionNum 2 f.tr ++ (optionNum 1 f.w ++ optionNum 1 f.dw))))

/-- The twelve optional settings of SET_TREE (R195). -/
def treeArguments (f : TreeFields) : List Byte :=
  optionBytes (fun m => flagByte (decide (m = Mode.opened))) f.mode ++ (optionBytes flagByte f.discovery ++ (optionNum 2 f.di ++
    (optionNum 2 f.hold ++ (optionNum 1 f.reach ++ (optionNum 2 f.ert ++ (optionNum 1 f.overhead ++ (optionNum 1 f.statusInterval ++
      (optionNum 1 f.rise ++ (optionNum 1 f.fall ++ (optionBytes flagByte f.autoSearch ++ optionNum 1 f.span))))))))))

/-- The body of a request on the controller link: its arguments in the catalogue's order; empty for a command that is no request. -/
def requestBody : Instr → List Byte
  | .setClock _ day second => bytesOf 2 day ++ bytesOf 3 second
  | .setPermission _ kind allow => bytesOf 1 kind ++ flagByte allow
  | .setTree _ f => treeArguments f
  | .setDefaultService _ f => serviceArguments f
  | .allowSerial _ x => bytesOf 6 x.toNat
  | .disallowSerial _ x => bytesOf 6 x.toNat
  | .barSerial _ x => bytesOf 6 x.toNat
  | .pinSerial _ x pin => bytesOf 6 x.toNat ++ flagByte pin
  | .readDirectory _ start => optionNum 2 start
  | .readHome _ line => bytesOf 1 line
  | .dismissHome _ line => bytesOf 1 line
  | .setService _ line f => bytesOf 1 line ++ serviceArguments f
  | .readService _ line => bytesOf 1 line
  | .releaseHome _ line => bytesOf 1 line
  | .expelHome _ line => bytesOf 1 line
  | .setTariff _ points => listBytes 1 (fun p => bytesOf 3 p.second ++ bytesOf 1 p.band) points
  | .setQuota _ line quota warn => optionNum 1 line ++ (optionNum 6 quota ++ optionNum 1 warn)
  | .resetPeriod _ line => optionNum 1 line
  | .readUsage _ line => optionNum 1 line
  | .seekJournal _ seq => bytesOf 4 seq
  | .exportDone _ seq => bytesOf 4 seq
  | .readBuffers _ line => optionNum 1 line
  | _ => []

end Sys2Proof.Machine
end

