-- ==== Sys2Proof/Machine/CraftReply.lean ====
section
/-! DEFINITION. The reply lines of the craft link (R185): the leading words, the values as name=value words in the order of the request's rule, one
word for each record or entry of a read, and the end of the line. The rules give no name to a reply's values and no text to an absent one; those are
log entry 17. No command reads these lines: a test or a claim lays out what State holds. -/

namespace Sys2Proof.Machine

/-! ## Texts (R185) -/

/-- The decimal digits of a number below ten to the power of `fuel`. -/
def decimalDigits : Nat → Nat → Text
  | 0, _ => []
  | fuel + 1, n => (if n < 10 then [] else decimalDigits fuel (n / 10)) ++ [BitVec.ofNat 8 (0x30 + n % 10)]

/-- A number in decimal without group separators; 40 digits hold every value of a reply. -/
def decText (n : Nat) : Text := decimalDigits 40 n

/-- A frame number: that of the count of frames given (R1; log entry 4). -/
def frameText (count : Nat) : Text := decText (frameNumber count)

/-- A serial: 12 hexadecimal digits, in capitals; the rules give no case (log entry 25). -/
def serialText (x : Serial) : Text :=
  (List.range 12).map (fun i =>
    let d := x.toNat / 16 ^ (11 - i) % 16
    BitVec.ofNat 8 (if d < 10 then 0x30 + d else 0x41 + (d - 10)))

/-- A yes-or-no value. -/
def onOffText (b : Bool) : Text := ascii (if b then "on" else "off")

/-- Some texts with a separator between them. -/
def joinTexts (sep : Byte) : List Text → Text
  | [] => []
  | [t] => t
  | t :: rest => t ++ sep :: joinTexts sep rest

/-- The parts of an item, joined by colons. -/
def itemText (parts : List Text) : Text := joinTexts 0x3A#8 parts

/-- The items of a list, separated by commas. -/
def listText {α : Type} (f : α → Text) (xs : List α) : Text := joinTexts 0x2C#8 (xs.map f)

/-- A value that may be absent. -/
def orNone {α : Type} (f : α → Text) : Option α → Text
  | some a => f a
  | none => ascii "none"

/-- A name=value word. -/
def word (name : String) (value : Text) : Text := ascii name ++ 0x3D#8 :: value

/-- A name=value word of a number. -/
def numWord (name : String) (n : Nat) : Text := word name (decText n)

/-- Words of numbers, with their names. -/
def numWords (names : List String) (values : List Nat) : List Text := (names.zip values).map (fun p => numWord p.1 p.2)

/-! ## Names -/

/-- The name of a slot's state (Table 2-1). -/
def HomeState.name : HomeState → String
  | .free => "FREE" | .assigned => "ASSIGNED" | .ranging => "RANGING" | .active => "ACTIVE" | .cooldown => "COOLDOWN" | .lost => "LOST"
  | .quarantined => "QUARANTINED"

/-- The name of a quarantine cause (Table 2-1). -/
def QuarantineCause.name : QuarantineCause → String
  | .overrun => "OVERRUN" | .search => "SEARCH"

/-- The name of a drift run's sign (Table 2-1). -/
def DriftSign.name : DriftSign → String
  | .late => "LATE" | .early => "EARLY"

/-- The name of a mode (R40). -/
def modeName : Mode → String
  | .listed => "LISTED" | .opened => "OPEN"

/-- The name of a link (R184, R185). -/
def linkName : Link → String
  | .controller => "CONTROLLER" | .craft => "CRAFT"

/-- The name of a context's phase (R41). -/
def Phase.name : Phase → String
  | .assignWait => "ASSIGN_WAIT" | .delayWait => "DELAY_WAIT" | .rangeWait => "RANGE_WAIT" | .finalWait => "FINAL_WAIT"
  | .verifyWait => "VERIFY_WAIT"

/-- The name of a tree rogue state (R105). -/
def Rogue.name : Rogue → String
  | .clear => "CLEAR" | .suspect => "SUSPECT" | .searching => "SEARCHING" | .foreign => "FOREIGN" | .unresolved => "UNRESOLVED"

/-- The name of a test's kind (R111). -/
def TestKind.name : TestKind → String
  | .verify => "VERIFY" | .split => "SPLIT" | .single => "SINGLE" | .confirm => "CONFIRM"

/-- The name of a search's outcome (R111). -/
def SearchOutcome.name : SearchOutcome → String
  | .done => "DONE" | .foreign => "FOREIGN" | .unresolved => "UNRESOLVED" | .aborted => "ABORTED"

/-- The name of a quota state (R160). -/
def QuotaState.name : QuotaState → String
  | .normal => "NORMAL" | .warned => "WARNED" | .throttled => "THROTTLED"

/-- The name of a record's kind (Table 1-9). -/
def RecordKind.name : RecordKind → String
  | .interval => "INTERVAL" | .final => "FINAL" | .treeRestart => "TREE_RESTART" | .mark => "MARK"

/-- The name of the journal's condition (R166). -/
def Condition.name : Condition → String
  | .scanning => "SCANNING" | .ready => "READY" | .full => "FULL" | .stopped => "STOPPED"

/-- The name of a cause of JOURNAL_FULL (R172). -/
def FullCause.name : FullCause → String
  | .noSector => "NO_SECTOR" | .stopped => "STOPPED"

/-- The name of a batch state (R166). -/
def BatchState.name : BatchState → String
  | .none => "NONE" | .gathering => "GATHERING" | .erasing => "ERASING" | .suspending => "SUSPENDING" | .suspended => "SUSPENDED"

/-- The name of a sector's state (R165). -/
def SectorState.name : SectorState → String
  | .erased => "ERASED" | .inUse => "IN_USE" | .full => "FULL" | .erasePending => "ERASE_PENDING" | .retired => "RETIRED"

/-- The name of a reply code (R187). -/
def Code.name : Code → String
  | .done => "DONE" | .accepted => "ACCEPTED" | .clamped => "CLAMPED" | .busy => "BUSY" | .denied => "DENIED" | .badForm => "BAD_FORM"
  | .badValue => "BAD_VALUE" | .notFound => "NOT_FOUND" | .conflict => "CONFLICT" | .full => "FULL"

/-! ## The values of each reply, in the order of its rule -/

/-- The counts of one link (R192). -/
def LinkCounts.words (link : String) (c : LinkCounts) : List Text :=
  numWords [link ++ "_busy", link ++ "_busy_discards", link ++ "_denied"] [c.busyAnswers, c.busyDiscards, c.denied]

/-- IDENTIFY (R192). -/
def IdentifyView.words (v : IdentifyView) : List Text :=
  [word "vendor" (ascii "Twezora"), word "part" (ascii "BLT4128")] ++
    numWords ["revision", "trees", "slots", "entries", "blocks", "sectors", "sector_slots", "frame", "seconds"]
      [2, 4, 128, 1024, 32768, 32, 512, v.frame, v.seconds] ++
    [word "link" (ascii (linkName v.link)), numWord "level" v.level] ++ v.controller.words "controller" ++ v.craft.words "craft" ++
    [numWord "discarded" v.discarded]

/-- A day clock (R149). -/
def clockWord (c : Option Clock) : Text :=
  word "clock" (match c with
    | some c => itemText [decText c.day, decText c.second]
    | none => ascii "unset")

/-- A directory entry as one word: its position, serial and state, and the fields Table 2-3 gives that state (R38). -/
def directoryWord (e : Nat × DirEntry) : Text :=
  let tree := fun (t : TreeId) => decText t.val
  let body := match e.2.body with
    | .expected b pin => [ascii "EXPECTED", orNone tree b, onOffText pin]
    | .present t l (.listed b) pin age =>
      [ascii "PRESENT", tree t, decText l.val, ascii "LISTED", orNone tree b, onOffText pin, orNone decText age]
    | .present t l .opened pin age => [ascii "PRESENT", tree t, decText l.val, ascii "OPEN", onOffText pin, orNone decText age]
    | .refused t age => [ascii "REFUSED", tree t, decText age]
    | .barred age => [ascii "BARRED", orNone decText age]
  word "entry" (itemText ([decText e.1, serialText e.2.serial] ++ body))

/-- The record check of a record with its sequence number: bytes 38..39 of Table 1-9. -/
def Record.check (r : Record) (seq : Nat) : Nat := natOf ((r.bytes seq).drop 38)

/-- The parts of a record in the order of Table 1-9, its flags in the order CLOCK_UNSET, MERGED, THROTTLED, MOVED. A record that has not been
programmed has no sequence number yet, and so no record check (log entry 17). -/
def Record.parts (r : Record) (seq : Option Nat) : List Text :=
  [orNone decText seq, decText r.tree.val, decText r.line.val, ascii r.kind.name, decText r.band, onOffText r.clockUnset,
   onOffText r.merged, onOffText r.throttled, onOffText r.moved, serialText r.serial, decText r.start, decText r.stop,
   decText r.counts.up, decText r.counts.down, decText r.counts.outage, orNone (fun q => decText (r.check q)) seq]

/-- A record as one word. -/
def recordWord (r : Record) (seq : Option Nat) : Text := word "record" (itemText (r.parts seq))

/-- READ_HOME (R24). -/
def HomeView.words (v : HomeView) : List Text :=
  [word "state" (ascii v.state.name), word "cause" (orNone (fun c => ascii c.name) v.cause), word "serial" (orNone serialText v.serial),
   numWord "eqd" v.eqd, numWord "misses" v.miss,
   word "drift" (itemText [decText v.drift.length, orNone (fun d => ascii d.name) v.drift.sign])] ++
    numWords ["misplaced", "overruns", "cooldown"] [v.misplaced, v.overruns, v.cooldown] ++
    [word "muted" (onOffText v.muted), numWord "since_grant" v.sinceGrant, word "hold_left" (orNone decText v.holdLeft),
     word "close_due" (onOffText v.closeDue)]

/-- The names of the six service fields with a mark before them. -/
def markedNames (mark : String) : List String := serviceNames.map (fun n => mark ++ n)

/-- READ_SERVICE (R69). -/
def ServiceView.words (v : ServiceView) : List Text :=
  numWords serviceNames [v.live.cr, v.live.pr, v.live.ba, v.live.tr, v.live.w, v.live.dw] ++
    numWords ["k", "b", "cr_eff", "pr_eff"] [v.k, v.b, v.crEff, v.prEff] ++ [word "throttled" (onOffText v.throttled)] ++
    ((markedNames "staged_").zip [v.staged.cr, v.staged.pr, v.staged.ba, v.staged.tr, v.staged.w, v.staged.dw]).map
      (fun p => word p.1 (orNone decText p.2)) ++
    [word "waiting" (onOffText v.waiting)]

/-- The contexts of a tree, each with its phase, attempts and line (R41). -/
def contextsWord (cs : List ContextView) : Text :=
  word "contexts" (listText (fun c => itemText [ascii c.phase.name, decText c.attempts, decText c.line.val]) cs)

/-- The counts of a watch period (R105). -/
def WatchCounts.text (c : WatchCounts) : Text := itemText [decText c.d, decText c.n, decText c.bb, decText c.frames]

/-- The twelve settings of a tree (R195). -/
def Settings.words (c : Settings) : List Text :=
  [word "mode" (ascii (modeName c.mode)), word "discovery" (onOffText c.discovery)] ++
    numWords ["di", "hold", "reach", "ert", "overhead", "status_interval", "rise", "fall"]
      [c.di, c.hold, c.reach, c.ert, c.overhead, c.statusInterval, c.rise, c.fall] ++
    [word "auto_search" (onOffText c.autoSearch), numWord "span" c.span]

/-- A pending window or a carried remainder: its frame and its length. -/
def stretchText (p : Nat × Nat) : Text := itemText [frameText p.1, decText p.2]

/-- The summary of the last plan (R72). -/
def Summary.words (x : Summary) : List Text :=
  [word "plan_frame" (frameText x.frame)] ++
    numWords ["plan_span", "data", "status", "ranging", "granted", "dark", "waited", "dropped"]
      [x.span, x.dataGrants, x.statusGrants, x.rangingGrants, x.granted, x.dark, x.waited, x.dropped]

/-- READ_TREE (R195, R40, R41, R72, R92, R105). -/
def TreeView.words (v : TreeView) : List Text :=
  v.settings.words ++
    [word "window" (orNone (fun w =>
      itemText [frameText w.target, decText w.reach, decText w.ert, ascii (if w.opened then "OPEN" else "SCHEDULED")]) v.window)] ++
    numWords ["opened", "skipped", "hellos", "collisions", "deferred"] [v.opened, v.skipped, v.taken, v.collisions, v.deferred] ++
    [contextsWord v.contexts, numWord "rotation" v.rotation.val, word "hold_count" (orNone decText v.hold),
     word "quiet" (orNone stretchText v.quiet), word "remainder" (orNone stretchText v.remainder)] ++
    numWords ["rangings", "verifies"] [v.rangings, v.verifies] ++ v.summary.words ++
    numWords ["arrived", "missed", "bad", "overruns", "stale", "dark_frames"]
      [v.arrived, v.missed, v.bad, v.overruns, v.stale, v.darkFrames] ++
    [word "rogue" (ascii v.rogue.name), word "first" (frameText v.first), word "current" v.current.text, word "last" v.last.text,
     word "last_first" (frameText v.lastFirst)]

/-- Lines as a list. -/
def linesText (ls : List Line) : Text := listText (fun l => decText l.val) ls

/-- A group of snapshot positions. -/
def Group.text (g : Group) : Text := itemText [decText g.lo, decText g.hi]

/-- The current test (R127). -/
def TestView.text (x : TestView) : Text :=
  itemText [ascii x.kind.name, x.group.text, ascii (if x.observing then "OBSERVING" else "SENDING"), orNone frameText x.m,
    decText x.span, decText x.counted, decText x.lit, decText x.retry, decText x.awaited]

/-- READ_SEARCH (R127). -/
def SearchView.words (v : SearchView) : List Text :=
  [word "rogue" (ascii v.rogue.name), word "run" (ascii (if v.running then "RUNNING" else "IDLE")), numWord "size" v.snapshot.length,
   word "snapshot" (linesText v.snapshot), word "stack" (listText Group.text v.stack), word "test" (orNone TestView.text v.test),
   numWord "restarts" v.restarts, numWord "quarantined" v.quarantined, word "release" (linesText v.release),
   word "pending" (linesText v.pending),
   word "last" (orNone (fun x =>
     itemText [ascii x.outcome.name, orNone frameText x.frame, decText x.quarantined, decText x.restarts]) v.last),
   numWord "span" v.span, contextsWord v.contexts]

/-- An account position (R163). The records of a close due have no sequence number yet. -/
def UsageView.words : UsageView → List Text
  | .empty => [word "account" (ascii "EMPTY")]
  | .opened a level =>
    [word "account" (ascii "OPEN"), word "serial" (serialText a.serial), numWord "start" a.start, numWord "band" a.band,
     word "clock_unset" (onOffText a.clockUnset), word "merged" (onOffText a.merged), word "throttled" (onOffText a.throttled)] ++
      numWords ["up", "down", "outage", "period", "quota", "warn", "warning_level"]
        [a.counts.up, a.counts.down, a.counts.outage, a.period, a.quota, a.warn, level] ++
      [word "quota_state" (ascii a.quotaState.name)]
  | .due r second place =>
    [word "account" (ascii "DUE"), recordWord r none] ++ (second.map (fun x => recordWord x none)).toList ++ [numWord "place" place]

/-- READ_USAGE for tree 15 (R156). -/
def UsageSummary.words (v : UsageSummary) : List Text :=
  [numWord "queued" v.queued, word "mark_waits" (onOffText v.markWaits), numWord "due" v.dueLength, clockWord v.clock,
   numWord "band" v.band] ++
    numWords ["interval_closes", "merged_closes", "due_closes"] [v.intervalCloses, v.mergedCloses, v.dueCloses]

/-- A sector of READ_JOURNAL_STATE as one word (R183). -/
def SectorView.word (v : SectorView) : Text :=
  Machine.word "sector" (itemText [ascii v.state.name, decText v.valid, orNone decText v.lowest, orNone decText v.highest, decText v.bad,
    onOffText v.retireOnFill])

/-- READ_JOURNAL_STATE (R183). -/
def JournalView.words (v : JournalView) : List Text :=
  let sector := fun (k : Fin 32) => decText k.val
  [word "condition" (ascii v.condition.name), word "cause" (orNone (fun c => ascii c.name) v.cause),
   word "write_sector" (orNone sector v.writeSector), numWord "write_position" v.writePos, word "reserve" (orNone decText v.reserve)] ++
    numWords ["next", "highest", "export_mark", "requested_mark"] [v.next, v.highest, v.exportMark, v.requested] ++
    [word "program" (orNone (fun (p : Nat × Fin 32 × Nat) => itemText [decText p.1, sector p.2.1, decText p.2.2]) v.program),
     word "batch" (ascii v.batch.name), word "batch_list" (listText sector v.list), word "batch_sector" (orNone sector v.current),
     numWord "batch_suspends" v.suspendCount] ++
    v.sectors.map SectorView.word ++ [numWord "cursor" v.cursor] ++
    numWords ["programmed", "failures", "erased", "erase_failures", "suspends"]
      [v.programmed, v.failures, v.erased, v.eraseFails, v.suspends]

/-- The items of one tree in READ_BUFFERS, as one word (R144). -/
def BufferTree.word (v : BufferTree) : Text :=
  Machine.word "tree" (itemText ([v.tree.val, v.downHold, v.upHold, v.broadcastBlocks, v.broadcastPackets, v.uplinkBlocks,
    v.uplinkPackets, v.noHome, v.broadcastDrops, v.flushed, v.uplinkDrops].map decText))

/-- READ_BUFFERS (R144). -/
def BuffersView.words (v : BuffersView) : List Text :=
  let common := fun (pauseOn held : Bool) (pointer : TreeId) (malformed requests : Nat) =>
    [word "pause" (onOffText pauseOn), word "held" (onOffText held)] ++
      numWords ["pointer", "malformed", "pause_requests"] [pointer.val, malformed, requests]
  [word "down_free" (listText decText v.downFree), word "up_free" (listText decText v.upFree), numWord "shared_free" v.sharedFree] ++
    (match v.scope with
    | .part p h t m r => common p h t m r ++ v.trees.map BufferTree.word
    | .tree p h t m r rotation turn queues home =>
      common p h t m r ++ v.trees.map BufferTree.word ++
        [numWord "rotation" rotation.val, word "open_turn" (onOffText turn), numWord "queues" queues] ++
        (match home with
        | some x =>
          numWords ["blocks", "packets", "deficit", "allowance", "tail_drops"] [x.blocks, x.packets, x.deficit, x.allowance, x.tailDrops]
        | none => []))

/-- The values of a reply as words. -/
def Values.words : Values → List Text
  | .none => []
  | .identify v => v.words
  | .clock c band last => [clockWord c, numWord "band" band, word "last_second" (orNone decText last)]
  | .permissions es =>
    es.map (fun (e : ReqKind × Bool × Bool) => word "kind" (itemText [ascii (kindName e.1), onOffText e.2.1, onOffText e.2.2]))
  | .tree v => v.words
  | .count n => [numWord "count" n]
  | .directory es cursor => es.map directoryWord ++ [numWord "cursor" cursor]
  | .home v => v.words
  | .service v => v.words
  | .search v => v.words
  | .tariff ps band c =>
    [word "points" (listText (fun (p : ChangePoint) => itemText [decText p.second, decText p.band]) ps), numWord "band" band, clockWord c]
  | .closes closed merged => numWords ["closed", "merged"] [closed, merged]
  | .usage v => v.words
  | .usageSummary v => v.words
  | .journal rs cursor => rs.map (fun r => recordWord r.2 (some r.1)) ++ numWords ["returned", "cursor"] [rs.length, cursor]
  | .seek cursor stands => [numWord "cursor" cursor, word "stands" (onOffText stands)]
  | .mark n => [numWord "mark" n]
  | .journalState v => v.words
  | .buffers v => v.words

/-! ## The reply line -/

/-- The name of the field at a position of a request's field order, counting from 1; a list of change points has one name. -/
def fieldNameAt (k : ReqKind) (position : Nat) : String :=
  match k with
  | .setTariff => "points"
  | k => ((fieldNames k)[position - 1]?).getD ""

/-- The leading words of a craft reply line (R185): `OK`, `OK ACCEPTED`, `CLAMPED` with the first clamped field, or `ERR` with the code. -/
def Reply.leadingWords (r : Reply) : List Text :=
  (match r.code with
  | .done => ["OK"]
  | .accepted => ["OK", "ACCEPTED"]
  | .clamped =>
    match ReqKind.ofCode r.kind.toNat, r.field with
    | some k, some p => ["CLAMPED", fieldNameAt k p]
    | _, _ => ["CLAMPED"]
  | c => ["ERR", c.name]).map ascii

/-- A reply line is at most 1,200 characters long, its carriage return and line feed among them (R185; log entry 17). -/
def craftLineMax : Nat := 1200

/-- The words of a line that fit in `room` characters, each led by a space: those before the first that does not fit (log entry 17). -/
def fittingWords : Nat → List Text → Text
  | _, [] => []
  | room, w :: rest => if w.length + 1 ≤ room then 0x20#8 :: (w ++ fittingWords (room - (w.length + 1)) rest) else []

/-- The words of a reply: the leading words and, but for a refusal, the values (R185, R187). -/
def Reply.wordsOf (r : Reply) : List Text := r.leadingWords ++ r.values.words

/-- A craft reply line (R185): its words with a space between them, a carriage return and a line feed. -/
def Reply.line (r : Reply) : Text := (fittingWords (craftLineMax - 1) r.wordsOf).drop 1 ++ [0x0D#8, 0x0A#8]

/-- What the craft link sends of an item: it sends no notices (R191). -/
def TxItem.line : TxItem → Option Text
  | .reply r => some r.line
  | .notice _ => none

end Sys2Proof.Machine
end

