-- ==== Sys2Proof/Safety.lean ====
section
/-! DEFINITION. What a safe state is (the invariants that every command keeps), and the words the statements share: a link ready for a request, the
state in which its owner judges it, and the answer. -/

namespace Sys2Proof.Machine

/-! ## Invariants -/

/-- The canonical form of the sparse stores: directory positions and journal keys strictly rising (log entry 19). -/
def State.storesWf (s : State) : Bool := storeWf s.directory && storeWf s.journal.array

/-- The line-message queue of every tree holds at most 64 entries (R7). -/
def State.queuesBounded (s : State) : Bool := allTrees.all (fun t => decide ((s.tree t).framer.count ≤ Config.messageCap))

/-- The receiver of every tree holds at most three expected-arrival lists (R92). -/
def State.listsBounded (s : State) : Bool := allTrees.all (fun t => decide ((s.tree t).receiver.lists.length ≤ 3))

/-- The committed credit of every service record is at most its burst allowance (R82). -/
def State.creditBounded (s : State) : Prop := ∀ t l r, (s.slot t l).service = some r → r.k ≤ r.live.ba

/-- The buffer pool's law (R131, R133, R134): no uplink queue holds more than its reserve of 1,024 blocks, no home queue and no broadcast queue more
than 512, and the downstream holds place at most 20,480 blocks in the shared region. -/
def State.poolLawful (s : State) : Prop :=
  (∀ t, (s.tree t).upHold ≤ 1024 ∧ queueBlocks (s.tree t).traffic.broadcast ≤ 512 ∧ ∀ l, queueBlocks (s.slot t l).queue ≤ 512) ∧
    (allTrees.map (fun t => (s.tree t).downHold - 2048)).sum ≤ 20480

/-- The marks of the journal stand in order (R156, R175, R176): the export mark is at most the mark of the MARK record at the head of the close queue,
that is at most the mark of the one that waits, and all are at most the requested mark; a MARK record being programmed is the one at the head. -/
def State.marksOrdered (s : State) : Prop :=
  s.journal.exportMark ≤ s.journal.requested ∧
    (∀ r, s.meter.mark = some r → s.journal.exportMark ≤ r.counts.up ∧ r.counts.up ≤ s.journal.requested) ∧
    (∀ r, s.meter.headMark = some r → s.journal.exportMark ≤ r.counts.up ∧ r.counts.up ≤ s.journal.requested ∧
      ∀ x, s.meter.mark = some x → r.counts.up ≤ x.counts.up) ∧
    (∀ p, s.journal.program = some p → p.record.kind = .mark → s.meter.headMark = some p.record)

/-- What the closes leave in the close queue and in the due list is never a MARK record (R153, R155, R175). -/
def State.closesOnly (s : State) : Prop :=
  (∀ r ∈ s.meter.queue, r.kind ≠ .mark) ∧
    ∀ t l r r2, (s.slot t l).account = .due r r2 → r.kind ≠ .mark ∧ ∀ x, r2 = some x → x.kind ≠ .mark

/-- The sectors of an erase batch are ERASE_PENDING and stand in it once; the write sector and the sector of a running program are IN_USE; and every
WRITTEN record of an ERASE_PENDING sector is at or below the export mark (R165, R168, R177 to R179). -/
def Journal.sectorsLawful (j : Journal) : Prop :=
  (∀ k, j.writeSector = some k → j.stateOf k = .inUse) ∧ (∀ p, j.program = some p → j.stateOf p.sector = .inUse) ∧
    (∀ k, j.batch.current = some k → j.stateOf k = .erasePending ∧ k ∉ j.batch.todo) ∧
    (∀ k ∈ j.batch.todo, j.stateOf k = .erasePending) ∧ j.batch.todo.Nodup ∧
    ∀ (k : Fin 32) (key seq : Nat) (r : Record), j.stateOf k = .erasePending → keySector key = k.val →
      storeGet j.array key = some { state := .written, contents := .whole seq r } → seq ≤ j.exportMark

/-- The law of R177, that no record above the export mark is ever erased, with what carries it from step to step. While the journal is SCANNING
nothing is programmed, erased or acknowledged (R181). -/
def State.eraseLawful (s : State) : Prop :=
  s.closesOnly ∧
    (s.journal.condition = .scanning → s.journal.program = none ∧ s.journal.batch.state = .none ∧ s.journal.batch.current = none ∧
      s.journal.batch.todo = [] ∧ s.meter.mark = none ∧ s.meter.headMark = none) ∧
    (s.journal.condition ≠ .scanning → s.marksOrdered ∧ s.journal.sectorsLawful)

/-- No two entries of the notice set have one key (R190). -/
def keysDistinct (ns : List Notice) : Prop :=
  ns.Pairwise (fun a b => ¬ (a.kind = b.kind ∧ a.tree = b.tree ∧ a.line = b.line))

/-- Every directory entry stands in a way of the bucket of its serial (R27). -/
def inBuckets (d : List (Nat × DirEntry)) : Prop := ∀ p ∈ d, p.1 ∈ waysOf (bucketOf p.2.serial)

/-- No two directory entries have one serial (R28). -/
def serialsDistinct (d : List (Nat × DirEntry)) : Prop := d.Pairwise (fun a b => a.2.serial ≠ b.2.serial)

/-- The directory's canonical form and its law: positions rise, every entry stands in its bucket, and no serial has two entries (R27, R28). -/
def State.directoryLawful (s : State) : Prop :=
  storeWf s.directory = true ∧ inBuckets s.directory ∧ serialsDistinct s.directory

/-- The directory's law with the law of R28: a PRESENT entry and the slot its tree and line name refer to each other, no other slot refers to that
entry, and a FREE slot refers to none. -/
def State.linksLawful (s : State) : Prop :=
  s.directoryLawful ∧
    (∀ (p : Nat) (e : DirEntry) (t : TreeId) (l : Line) (o : Origin) (pin : Bool) (age : Option Nat),
      storeGet s.directory p = some e → e.body = .present t l o pin age → (s.slot t l).link = some p) ∧
    ∀ (t : TreeId) (l : Line),
      (∀ p, (s.slot t l).link = some p →
        ∃ (e : DirEntry) (o : Origin) (pin : Bool) (age : Option Nat), storeGet s.directory p = some e ∧ e.body = .present t l o pin age) ∧
      ((s.slot t l).state = .free → (s.slot t l).link = none)

/-- Whether an enrolment context is bound to a line (R41). -/
def Engine.binds (e : Engine) (l : Line) : Prop := ∃ (i : Fin 4) (c : Context), e.contexts[i] = some c ∧ c.line = l

/-- The law of the contexts of a tree (R41): no two contexts are bound to one line, and a slot is ASSIGNED or RANGING exactly when a context is
bound to it. With it stand what it rests on: the planner's lists hold each line once and only lines of contexts (R71), the pending-release set holds
QUARANTINED lines (R129), and exactly the slots that are not FREE have a directory link (Table 2-1). -/
def TreeState.contextsLawful (T : TreeState) : Prop :=
  (∀ (i j : Fin 4) (c d : Context), T.engine.contexts[i] = some c → T.engine.contexts[j] = some d → c.line = d.line → i = j) ∧
    (∀ l, T.engine.binds l ↔ (T.slot l).state = .assigned ∨ (T.slot l).state = .ranging) ∧
    T.planner.rangingList.Nodup ∧ (∀ l ∈ T.planner.rangingList, T.engine.binds l) ∧
    T.planner.verifyList.Nodup ∧ (∀ l ∈ T.planner.verifyList, T.engine.binds l) ∧
    (∀ l ∈ T.search.pending, (T.slot l).state = .quarantined) ∧
    ∀ l, (T.slot l).state = .free ↔ (T.slot l).link = none

/-- The contexts of every tree are lawful (R41). -/
def State.contextsLawful (s : State) : Prop := ∀ t, (s.tree t).contextsLawful

/-- Whether a group of a stack that holds `beneath` groups under it is one that splits of at most 128 positions leave (R121). -/
def Group.fits (g : Group) (size beneath : Nat) : Prop :=
  g.lo < g.hi ∧ g.hi ≤ size ∧ (g.hi - g.lo) * 2 ^ beneath ≤ 128

/-- The groups of a stack, top first: each fits over those beneath it and lies below them (R121). -/
def stackLawful (size : Nat) : List Group → Prop
  | [] => True
  | g :: rest => g.fits size rest.length ∧ (∀ h ∈ rest, g.hi ≤ h.lo) ∧ stackLawful size rest

/-- The group under test over a stack: the whole snapshot for a VERIFY, else a group below those of the stack, which a SPLIT can halve (R118 to
R121). -/
def Test.groupLawful (x : Test) (size : Nat) (stack : List Group) : Prop :=
  match x.kind with
  | .verify => x.group = { lo := 0, hi := size } ∧ stack = []
  | .split => x.group.fits size stack.length ∧ 2 ≤ x.group.hi - x.group.lo ∧ ∀ h ∈ stack, x.group.hi ≤ h.lo
  | .single => x.group.fits size stack.length ∧ ∀ h ∈ stack, x.group.hi ≤ h.lo
  | .confirm => x.group.fits size stack.length ∧ ∀ h ∈ stack, x.group.hi ≤ h.lo

/-- The law of the isolation search of a tree (R111, R112, R121): it runs exactly while the tree is SEARCHING and exactly while a test is held, its
stack is empty else, no window is SCHEDULED while it runs, and its groups are those the splits of at most 128 positions leave. -/
def TreeState.searchLawful (T : TreeState) : Prop :=
  (T.search.running = true ↔ T.watch.rogue = .searching) ∧ (T.search.running = true ↔ T.search.test.isSome = true) ∧
    (T.search.running = false → T.search.stack = []) ∧
    (T.search.running = true → ∀ w, T.engine.window = some w → w.opened = true) ∧
    T.search.snapshot.length ≤ 128 ∧ stackLawful T.search.snapshot.length T.search.stack ∧
    ∀ x, T.search.test = some x → x.groupLawful T.search.snapshot.length T.search.stack

/-- The isolation search of every tree is lawful (R121). -/
def State.searchesLawful (s : State) : Prop := ∀ t, (s.tree t).searchLawful

/-- What names a single home in a notice (Table 10-1). -/
def NoticeKind.ofHome : NoticeKind → Bool
  | .homeActive | .homeLost | .homeGone | .enrolFailed | .outOfReach | .overrun | .quarantined | .quotaWarning | .quotaReached => true
  | .partReady | .treeFull | .directoryFull | .serialRefused | .serialElsewhere | .darkLight | .searchDone | .holdLapsed
  | .sectorRetired | .journalFull => false

/-- What is about the whole part (Table 10-1). -/
def NoticeKind.ofPart : NoticeKind → Bool
  | .partReady | .sectorRetired | .journalFull => true
  | .homeActive | .homeLost | .homeGone | .enrolFailed | .outOfReach | .overrun | .quarantined | .quotaWarning | .quotaReached
  | .treeFull | .directoryFull | .serialRefused | .serialElsewhere | .darkLight | .searchDone | .holdLapsed => false

/-- Whether the key of a notice has the form of its kind (Table 10-1, R190): a part notice has no tree and no line, any other a tree; a line, or all
lines, is named by the nine kinds of a home alone, of which OUT_OF_REACH may also have no line. -/
def Notice.keyLawful (n : Notice) : Prop :=
  (n.kind.ofPart = true ↔ n.tree = none) ∧ (n.line ≠ .none → n.kind.ofHome = true) ∧
    (n.line = .none → n.kind.ofHome = true → n.kind = .outOfReach)

/-- Whether a notice names a single line. -/
def Notice.single (n : Notice) : Bool :=
  match n.line with
  | .line _ => true
  | .all => false
  | .none => false

/-- The law of the notice set (R190): one entry per key, each key of the form of its kind, at most 185 entries of single lines, and every count in
1..65,535. While the journal is SCANNING no part notice waits, since no operation of the journal is under way (R181, R182). -/
def State.noticesLawful (s : State) : Prop :=
  keysDistinct s.links.notices ∧ (∀ n ∈ s.links.notices, n.keyLawful ∧ 1 ≤ n.count ∧ n.count ≤ 65535) ∧
    (s.links.notices.filter Notice.single).length ≤ 185 ∧
    (s.journal.condition = .scanning →
      (∀ n ∈ s.links.notices, n.kind.ofPart = false) ∧ s.journal.program = none ∧ s.journal.batch.state = .none ∧
        s.journal.batch.current = none)

/-! ## The journal's condition -/

/-- The write sector `w` is in its reserve (R172): no sector is ERASED, and at most 8 ERASED slots are left from the write position on. -/
def Journal.onReserve (j : Journal) (w : Fin 32) : Prop :=
  (∀ k, j.stateOf k ≠ .erased) ∧
    ((List.range 512).filter (fun i => decide (j.writePos ≤ i) && (storeGet j.array (slotKey w i)).isNone)).length ≤ 8

/-- `c` is the condition that R172 gives a journal which stood in condition `before`, READY or FULL; `retry` says whether a record whose program has
failed waits for its retry. -/
def Journal.ruledBy (j : Journal) (before : Condition) (retry : Bool) (c : Condition) : Prop :=
  (4294967295 ≤ j.next → c = .stopped) ∧
  (j.next < 4294967295 → j.writeSector = none →
    ((∃ k, j.stateOf k = .erasePending) → c = .full) ∧ ((∀ k, j.stateOf k ≠ .erasePending) → c = .stopped)) ∧
  ∀ w, j.next < 4294967295 → j.writeSector = some w →
    (¬ j.onReserve w → c = before) ∧
    (j.onReserve w → (retry = true ∨ ∃ k, j.stateOf k = .full ∨ j.stateOf k = .erasePending) → c = .full) ∧
    (j.onReserve w → retry = false → (∀ k, j.stateOf k ≠ .full ∧ j.stateOf k ≠ .erasePending) → c = .stopped)

/-- The journal of `u` stands in the condition that R172 gives it after `s`; when it has become FULL or STOPPED, JOURNAL_FULL has been raised with
that cause, on the links of `told`, and else the links are those of `told`. -/
def State.conditionRuled (s told : State) (retry : Bool) (u : State) : Prop :=
  let c := u.journal.condition
  let cause : FullCause := if c = .full then .noSector else .stopped
  u.journal.ruledBy s.journal.condition retry c ∧
  (c = s.journal.condition → u.journal.cause = s.journal.cause ∧ u.links = told.links) ∧
  (c ≠ s.journal.condition → u.journal.cause = some cause ∧ u.links = (told.raise .journalFull none .none (.journalFull cause)).links)

/-- The sector of a program fills with it, having no ERASED slot after it, and its retire-on-fill mark is set (R171). -/
def State.programRetires (s : State) (p : Program) : Bool :=
  (s.journal.sectors[p.sector]).retireOnFill &&
    (List.range 512).all (fun i => decide (i ≤ p.slot) || (storeGet s.journal.array (slotKey p.sector i)).isSome)

/-! ## Requests -/

/-- The head and the kind of a request; none for an event. -/
def requestOf : Instr → Option (Head × ReqKind)
  | .identify h => some (h, .identify)
  | .restartPart h => some (h, .restartPart)
  | .setClock h _ _ => some (h, .setClock)
  | .readClock h => some (h, .readClock)
  | .setPermission h _ _ => some (h, .setPermission)
  | .readPermission h => some (h, .readPermission)
  | .setTree h _ => some (h, .setTree)
  | .readTree h => some (h, .readTree)
  | .restartTree h => some (h, .restartTree)
  | .holdTree h => some (h, .holdTree)
  | .releaseHold h => some (h, .releaseHold)
  | .setDefaultService h _ => some (h, .setDefaultService)
  | .allowSerial h _ => some (h, .allowSerial)
  | .disallowSerial h _ => some (h, .disallowSerial)
  | .barSerial h _ => some (h, .barSerial)
  | .pinSerial h _ _ => some (h, .pinSerial)
  | .readDirectory h _ => some (h, .readDirectory)
  | .readHome h _ => some (h, .readHome)
  | .dismissHome h _ => some (h, .dismissHome)
  | .setService h _ _ => some (h, .setService)
  | .readService h _ => some (h, .readService)
  | .startSearch h => some (h, .startSearch)
  | .abortSearch h => some (h, .abortSearch)
  | .readSearch h => some (h, .readSearch)
  | .releaseHome h _ => some (h, .releaseHome)
  | .expelHome h _ => some (h, .expelHome)
  | .setTariff h _ => some (h, .setTariff)
  | .readTariff h => some (h, .readTariff)
  | .setQuota h _ _ _ => some (h, .setQuota)
  | .resetPeriod h _ => some (h, .resetPeriod)
  | .closeAll h => some (h, .closeAll)
  | .readUsage h _ => some (h, .readUsage)
  | .readJournal h => some (h, .readJournal)
  | .seekJournal h _ => some (h, .seekJournal)
  | .exportDone h _ => some (h, .exportDone)
  | .readJournalState h => some (h, .readJournalState)
  | .readBuffers h _ => some (h, .readBuffers)
  | _ => none

/-- Whether a request holds the fields of its kind: a tariff list of more than 8 points does not (R150). -/
def formGood : Instr → Bool
  | .setTariff _ points => decide (points.length ≤ 8)
  | _ => true

/-- A link can hand a request of kind `k` to its owner (R186, R187, R189): the part is not in reset, fewer than three replies wait, no request is in
hand, and the permission map allows the kind on the link. -/
def State.ready (s : State) (h : Head) (k : ReqKind) : Bool :=
  !s.inReset && decide ((s.link h.link).replies.length < 3) && (s.link h.link).inHand.isNone && s.permitted h.link k

/-- The state in which a request is judged: its link's receiver stands at the start of a new frame or line, and the request is in hand (R184 to
R186). -/
def State.taken (s : State) (h : Head) (kind : Byte) : State := (s.hunt h.link).modLink h.link (fun x => { x with inHand := some kind })

/-- `s` with the reply of the request in hand made and placed on its link's reply list (R186, R187). -/
def State.answer (s : State) (h : Head) (k : ReqKind) (a : Answer) : State := s.reply h k.byte a true

/-- The bytes given arrive on a link one after another, with nothing between them. -/
def feed (link : Link) : List Byte → State → Host.Outcome State Fault Refusal
  | [], s => .next s
  | b :: rest, s =>
    match exec (.byteReceived link b) s with
    | .next t => feed link rest t
    | other => other

/-- Events are taken: the part is not held in reset (R196). -/
def State.running (s : State) : Bool := !s.inReset

end Sys2Proof.Machine
end

