-- ==== Sys2Proof/WellFormed.lean ====
section
/-! DEFINITION. Well-formed commands: the operands a link, the fibre or the trunk can bring. A request's numbers fit the bytes of their fields
(R188) on the controller link, and its tag is 0 on the craft link (R185); what the fibre brings lies where the receiver looks for it. The meanings are
total and do not assume it. -/

namespace Sys2Proof

/-- Whether a number fits in `n` bytes. -/
def fitsBytes (n v : Nat) : Bool := decide (v < 256 ^ n)

/-- Whether an optional number, when present, fits in `n` bytes. -/
def optionFits (n : Nat) : Option Nat → Bool
  | some v => fitsBytes n v
  | none => true

/-- A tag and a tree field as a link brings them (Table 1-8, R185): a byte each on the controller link; tag 0 and a tree 0..3, 15, or the number out
of range that stands for any other decimal on the craft link. -/
def Head.wellFormed (h : Head) : Bool :=
  match h.link with
  | .controller => decide (h.tree < 256)
  | .craft => decide (h.tag = 0) && decide (h.tree ≤ 16)

/-- A number of a request: on the controller link it fits the bytes of its field (R188); on the craft link it is any decimal. -/
def Head.fits (h : Head) (n v : Nat) : Bool :=
  match h.link with
  | .controller => fitsBytes n v
  | .craft => true

/-- An optional number of a request. -/
def Head.optionFits (h : Head) (n : Nat) (v : Option Nat) : Bool :=
  match v with
  | some v => h.fits n v
  | none => true

/-- The fields of SET_SERVICE and SET_DEFAULT_SERVICE fit theirs (Table 4-1). -/
def Head.fitsService (h : Head) (f : ServiceChange) : Bool :=
  h.optionFits 2 f.cr && h.optionFits 2 f.pr && h.optionFits 3 f.ba && h.optionFits 2 f.tr && h.optionFits 1 f.w && h.optionFits 1 f.dw

/-- The settings of SET_TREE fit theirs (R195). -/
def Head.fitsTree (h : Head) (f : TreeFields) : Bool :=
  h.optionFits 2 f.di && h.optionFits 2 f.hold && h.optionFits 1 f.reach && h.optionFits 2 f.ert && h.optionFits 1 f.overhead &&
    h.optionFits 1 f.statusInterval && h.optionFits 1 f.rise && h.optionFits 1 f.fall && h.optionFits 1 f.span

/-- A tariff list whose count byte and items can be sent (R150, R188). -/
def Head.fitsPoints (h : Head) (ps : List ChangePoint) : Bool :=
  h.fits 1 ps.length && ps.all (fun p => h.fits 3 p.second && h.fits 1 p.band)

/-- Lit stretches of a receive frame: not empty, ascending, apart from one another, within the frame (R103). -/
def lightWellFormed : List Stretch → Bool
  | [] => true
  | [x] => decide (x.lo < x.hi) && decide (x.hi ≤ Config.frameSU)
  | x :: y :: rest => decide (x.lo < x.hi) && decide (x.hi < y.lo) && lightWellFormed (y :: rest)

/-- A guard is 4 SU long (R13). -/
def GuardLight.wellFormed (g : GuardLight) : Bool := decide (g.length = 4)

/-- A burst lies within 8 SU of its place, has a guard of 4 SU, and has whole SU of byte space after its overhead (R13, R94). -/
def Burst.wellFormed (b : Burst) : Bool :=
  decide (b.e.natAbs ≤ 320) && b.guard.wellFormed && decide (b.bytes.length % 5 = 0) && decide (10 ≤ b.bytes.length)

/-- A ranging burst lies within 128 SU of its place and has 20 bytes (R15, R98). -/
def RangingBurst.wellFormed (b : RangingBurst) : Bool := decide (b.e.natAbs ≤ 5120) && decide (b.bytes.length = 20)

/-- Whether a command is well formed. -/
def Instr.wellFormed : Instr → Bool
  | .identify h => h.wellFormed
  | .restartPart h => h.wellFormed
  | .setClock h day second => h.wellFormed && h.fits 2 day && h.fits 3 second
  | .readClock h => h.wellFormed
  | .setPermission h kind _ => h.wellFormed && h.fits 1 kind
  | .readPermission h => h.wellFormed
  | .setTree h f => h.wellFormed && h.fitsTree f
  | .readTree h => h.wellFormed
  | .restartTree h => h.wellFormed
  | .holdTree h => h.wellFormed
  | .releaseHold h => h.wellFormed
  | .setDefaultService h f => h.wellFormed && h.fitsService f
  | .allowSerial h _ => h.wellFormed
  | .disallowSerial h _ => h.wellFormed
  | .barSerial h _ => h.wellFormed
  | .pinSerial h _ _ => h.wellFormed
  | .readDirectory h start => h.wellFormed && h.optionFits 2 start
  | .readHome h line => h.wellFormed && h.fits 1 line
  | .dismissHome h line => h.wellFormed && h.fits 1 line
  | .setService h line f => h.wellFormed && h.fits 1 line && h.fitsService f
  | .readService h line => h.wellFormed && h.fits 1 line
  | .startSearch h => h.wellFormed
  | .abortSearch h => h.wellFormed
  | .readSearch h => h.wellFormed
  | .releaseHome h line => h.wellFormed && h.fits 1 line
  | .expelHome h line => h.wellFormed && h.fits 1 line
  | .setTariff h ps => h.wellFormed && h.fitsPoints ps
  | .readTariff h => h.wellFormed
  | .setQuota h line quota warn => h.wellFormed && h.optionFits 1 line && h.optionFits 6 quota && h.optionFits 1 warn
  | .resetPeriod h line => h.wellFormed && h.optionFits 1 line
  | .closeAll h => h.wellFormed
  | .readUsage h line => h.wellFormed && h.optionFits 1 line
  | .readJournal h => h.wellFormed
  | .seekJournal h seq => h.wellFormed && h.fits 4 seq
  | .exportDone h seq => h.wellFormed && h.fits 4 seq
  | .readJournalState h => h.wellFormed
  | .readBuffers h line => h.wellFormed && h.optionFits 1 line
  | .unknownRequest h _ => h.wellFormed
  | .frameDiscarded (.badLength b1 b2) => decide (256 * b1.toNat + b2.toNat < 3) || decide (1023 < 256 * b1.toNat + b2.toNat)
  | .frameDiscarded .badCheck => true
  | .byteGapTimeout => true
  | .busyReply h _ => h.wellFormed
  | .transmitComplete _ => true
  | .powerOn => true
  | .resetInput _ => true
  | .resetEnd => true
  | .partReset => true
  | .frameStart _ => true
  | .holdLapsed _ => true
  | .cooldownEnd _ _ => true
  | .discoveryWindowOpen _ => true
  | .callReoffer _ => true
  | .enrolMessageRetry _ _ => true
  | .dismissRetry _ _ => true
  | .driftDelayRetry _ _ => true
  | .holdExpiryRetry _ _ => true
  | .returnRangingRetry _ _ => true
  | .overrunMuteRetry _ _ => true
  | .searchOfferRetry _ => true
  | .releaseListDrain _ => true
  | .releaseTry _ _ => true
  | .grantOutcome _ _ found => found.all Burst.wellFormed
  | .overrun _ _ guard _ => guard.wellFormed
  | .rangingOutcome _ _ found => found.all RangingBurst.wellFormed
  | .hello _ offset bytes => decide (offset + 128 ≤ 28128) && decide (bytes.length = 20)
  | .quietWindowEnd _ => true
  | .receiveFrameEnd _ light => lightWellFormed light
  | .watchPeriodEnd _ => true
  | .spanEnd _ => true
  | .secondEvent => true
  | .refusedEntryExpiry _ => true
  | .holdExpiry _ _ => true
  | .trunkPacketArrival _ _ _ _ => true
  | .trunkTransmitComplete => true
  | .trunkPauseRequest _ => true
  | .trunkHoldEnd => true
  | .programStart => true
  | .programVerify _ _ => true
  | .programTimeout _ _ => true
  | .acceptWindowEnd => true
  | .eraseComplete _ => true
  | .eraseTimeout _ => true
  | .suspendEvent => true
  | .scanComplete => true
  | .byteReceived _ _ => true

end Sys2Proof
end

