-- ==== Sys2Proof/Certificates/Slice0/Obligations.lean ====
section
/-! DEFINITION. The statements about the BLT4128. -/

open Sys2Proof
open Sys2Proof.Machine

/-! ## Steps and resets -/

/-- One step takes the command at the front of the queue: it is `exec` of that command on the state with the queue's rest.

On an empty queue the block idles: the model's own choice (log entry 18). -/
def Obligations.StepRunsTheFrontCommandOrIdles : Prop :=
  (∀ (c : Instr) (rest : List Instr) (s : State), step (s.withPending (c :: rest)) = exec c (s.withPending rest)) ∧
  (∀ (s : State), step (s.withPending []) = .next (s.withPending []))

/-- No command stops the block, and none changes the queue of the commands that wait (log entries 5 and 18). -/
def Obligations.EveryCommandAnswersANextState : Prop :=
  ∀ (c : Instr) (s : State), ∃ t, exec c s = .next t ∧ t.pending = s.pending

/-- Every step keeps the canonical form of the directory and of the journal array (log entry 19).

Every step keeps the directory's law: its positions rise, every entry stands in a way of its serial's bucket, and no serial has two entries. -/
def Obligations.EveryStepKeepsTheStoresAndTheDirectoryLaw : Prop :=
  (∀ (s t : State), s.storesWf = true → step s = .next t → t.storesWf = true) ∧
  (∀ (s t : State), s.directoryLawful → step s = .next t → t.directoryLawful)

/-- Every step keeps the law of R28: a PRESENT entry and the slot its tree and line name refer to each other, and no other slot refers to it. -/
def Obligations.EveryStepKeepsTheDirectoryLinks : Prop :=
  ∀ (s t : State), s.linksLawful → step s = .next t → t.linksLawful

/-- Every step keeps the law of the contexts (R41): a slot is ASSIGNED or RANGING exactly when one context is bound to it. Under it at most four
slots of a tree are in those two states, and each of the planner's lists holds at most four lines (R71). -/
def Obligations.EveryStepKeepsTheContextLaw : Prop :=
  (∀ (s u : State), s.contextsLawful → step s = .next u → u.contextsLawful) ∧
  (∀ (s : State) (t : TreeId), s.contextsLawful →
    (allLines.filter (fun l => decide ((s.slot t l).state = .assigned) || decide ((s.slot t l).state = .ranging))).length ≤ 4 ∧
    (s.tree t).planner.rangingList.length ≤ 4 ∧ (s.tree t).planner.verifyList.length ≤ 4)

/-- Every step keeps the law of the isolation search (R111, R112, R121), and no discovery window opens on a tree in a step through which its search
runs. Under the law the stack holds at most eight groups, which share no position with each other, and none with the group of a test other than a
VERIFY. -/
def Obligations.EveryStepKeepsTheSearchLaw : Prop :=
  (∀ (s u : State), s.searchesLawful → step s = .next u → u.searchesLawful) ∧
  (∀ (s u : State) (t : TreeId), s.searchesLawful → step s = .next u → (s.tree t).search.running = true →
    (u.tree t).search.running = true →
    (u.tree t).engine.window = none ∨ (u.tree t).engine.window = (s.tree t).engine.window) ∧
  (∀ (s : State) (t : TreeId), s.searchesLawful →
    let S := (s.tree t).search
    S.stack.length ≤ 8 ∧ S.stack.Pairwise (fun g h => ∀ p, ¬ (g.has p = true ∧ h.has p = true)) ∧
    ∀ x, S.test = some x → x.kind ≠ .verify → ∀ g ∈ S.stack, ∀ p, ¬ (x.group.has p = true ∧ g.has p = true))

/-- Every step keeps the law of the notice set (R190): one entry per key, each of the form of its kind. Under it the set holds at most 256 entries. -/
def Obligations.EveryStepKeepsTheNoticeLaw : Prop :=
  (∀ (s u : State), s.noticesLawful → step s = .next u → u.noticesLawful) ∧
  (∀ s : State, s.noticesLawful → s.links.notices.length ≤ 256)

/-- Every step keeps each tree's line-message queue within its 64 entries (R7).

Every step keeps each tree's receiver at three expected-arrival lists or fewer (R92).

Every step keeps the committed credit K of every service record at or below its burst allowance BA (R82). -/
def Obligations.EveryStepKeepsQueuesListsAndCreditBounded : Prop :=
  (∀ (s t : State), s.queuesBounded = true → step s = .next t → t.queuesBounded = true) ∧
  (∀ (s t : State), s.listsBounded = true → step s = .next t → t.listsBounded = true) ∧
  (∀ (s u : State), s.creditBounded → step s = .next u → u.creditBounded)

/-- Every invariant that a step is said to keep holds right after reset.

What a part reset leaves, tree by tree: slots, engine, planner, receiver, watch, search and traffic buffer. That the summary of the empty plan
shows frame number 0 is the model's (log entry 57).

The settings of every tree after a part reset, with its default service record and its quota defaults.

What a part reset leaves in the blocks of the whole part; the count of wraps and the list of timed-out programs are the model's
own (log entries 4 and 70). What R166 leaves to the end of the scan is not part of this statement (log entry 6).

The permission map after a part reset (R189): the fourteen read kinds and SET_SERVICE, and no other. -/
def Obligations.ResetLeavesEveryBlockEmptyAndMeetsTheInvariants : Prop :=
  (State.reset.storesWf = true ∧ State.reset.directoryLawful ∧ State.reset.queuesBounded = true ∧ State.reset.listsBounded = true ∧
  State.reset.creditBounded ∧ State.reset.poolLawful ∧ State.reset.eraseLawful ∧ State.reset.linksLawful ∧
  State.reset.contextsLawful ∧ State.reset.searchesLawful ∧ State.reset.noticesLawful) ∧
  (∀ (pending : List Instr) (n : Nat) (sectors : Vector Sector 32) (array : List (Nat × Cell)) (t : TreeId) (l : Line),
     let T := (State.afterReset pending n sectors array).tree t
     T.slot l = Slot.free ∧ (T.slot l).state = .free ∧ (T.slot l).link = none ∧ (T.slot l).muted = false ∧
     (T.slot l).account = .empty ∧ (T.slot l).queue = [] ∧
     T.framer.urgent = [.dismissAll] ∧ T.framer.ordinary = [] ∧
     T.engine = { counter := 0, window := none, refusedCall := none, contexts := Vector.replicate 4 none, opened := 0, skipped := 0,
                  taken := 0, collisions := 0, deferred := 0, dismissHeld := [], driftHeld := [] } ∧
     T.planner.rotation = 0 ∧ T.planner.hold = none ∧ T.planner.quiet = none ∧ T.planner.remainder = none ∧
     T.planner.rangingList = [] ∧ T.planner.verifyList = [] ∧ T.planner.summary = {} ∧
     T.receiver.lists = [] ∧ T.receiver.muteWaits = [] ∧ T.receiver.arrived = 0 ∧ T.receiver.missed = 0 ∧ T.receiver.bad = 0 ∧
     T.receiver.overruns = 0 ∧ T.receiver.stale = 0 ∧ T.receiver.darkFrames = 0 ∧
     T.watch.rogue = .clear ∧ T.watch.first = 0 ∧ T.watch.current = {} ∧ T.watch.last = {} ∧
     T.search.running = false ∧ T.search.snapshot = [] ∧ T.search.stack = [] ∧ T.search.test = none ∧ T.search.restarts = 0 ∧
     T.search.quarantined = 0 ∧ T.search.release = [] ∧ T.search.pending = [] ∧ T.search.last = none ∧
     T.traffic.broadcast = [] ∧ T.traffic.uplink = [] ∧ T.traffic.rotation = 0 ∧ T.traffic.openTurn = false ∧
     T.traffic.noHome = 0 ∧ T.traffic.broadcastDrops = 0 ∧ T.traffic.flushed = 0 ∧ T.traffic.uplinkDrops = 0) ∧
  (∀ (pending : List Instr) (n : Nat) (sectors : Vector Sector 32) (array : List (Nat × Cell)) (t : TreeId),
     ((State.afterReset pending n sectors array).tree t).settings =
       { mode := .listed, discovery := true, di := 64, hold := 120, reach := 40, ert := 28000, overhead := 16, statusInterval := 8,
         rise := 8, fall := 2, autoSearch := true, span := 16,
         service := { cr := 0, pr := 3125, ba := 0, tr := 312, w := 1, dw := 1 }, quota := 0, warn := 7 }) ∧
  (∀ (pending : List Instr) (n : Nat) (sectors : Vector Sector 32) (array : List (Nat × Cell)),
     let s := State.afterReset pending n sectors array
     s.directory = [] ∧ s.time.frame = 0 ∧ s.time.wraps = 0 ∧ s.time.boundaries = 0 ∧ s.time.secondsDue = [] ∧ s.time.seconds = 0 ∧
     s.trunk.pauseOn = false ∧ s.trunk.sending = none ∧ s.trunk.pointer = 0 ∧ s.trunk.held = none ∧ s.trunk.malformed = 0 ∧
     s.trunk.pauseRequests = 0 ∧ s.sharedFree = 20480 ∧
     s.meter.clock = none ∧ s.meter.schedule = [] ∧ s.meter.queue = [] ∧ s.meter.mark = none ∧ s.meter.due = [] ∧
     s.meter.intervalCloses = 0 ∧ s.meter.mergedCloses = 0 ∧ s.meter.dueCloses = 0 ∧
     s.journal.condition = .scanning ∧ s.journal.program = none ∧ s.journal.late = [] ∧ s.journal.batch.state = .none ∧
     s.journal.batch.list = [] ∧ s.journal.programmed = 0 ∧ s.journal.failures = 0 ∧ s.journal.erased = 0 ∧
     s.journal.eraseFails = 0 ∧ s.journal.suspends = 0 ∧
     s.journal.sectors = sectors ∧ s.journal.array = array ∧
     (∀ k : Link, (s.link k).inHand = none ∧ (s.link k).replies = [] ∧ (s.link k).dirCursor = 0 ∧ (s.link k).busyAnswers = 0 ∧
       (s.link k).busyDiscards = 0 ∧ (s.link k).denied = 0) ∧
     s.links.notices = [] ∧ s.links.discarded = 0 ∧ s.links.tookReply = false ∧ s.links.frameRx = none ∧ s.links.lineRx = []) ∧
  (∀ (pending : List Instr) (n : Nat) (sectors : Vector Sector 32) (array : List (Nat × Cell)) (k : ReqKind),
     (State.afterReset pending n sectors array).permitted .controller k = true ∧
     ((State.afterReset pending n sectors array).permitted .craft k = true ↔
       k ∈ [ReqKind.identify, .readClock, .readPermission, .readTree, .readDirectory, .readHome, .readService, .readSearch,
            .readTariff, .readUsage, .readJournal, .seekJournal, .readJournalState, .readBuffers, .setService]))

/-- POWER_ON, RESET_INPUT held low for at least 1 µs, and PART_RESET have one effect (R193, R196): the part is held in reset with every volatile
item at its value after a part reset, and of the journal's storage only the slot of a program under way and the sector of an erase step under way
may differ (R181); what these two hold is a free value (log entries 1 and 2), and the sectors' items keep their values until the scan ends (log
entry 6). A low level shorter than 1 µs takes a state of one of two kinds: that of a reset, with the same bound on the journal's storage, or the
state as it was (log entry 3).

The reset ends (R1, R196): the part runs again and nothing else changes; a part that is not held in reset is left as it is (log entry 48).

While the part is held in reset no byte, request, frame start or other event is taken; only the three commands of the reset itself are (R196; log
entries 48 and 49). -/
def Obligations.ResetsHoldThePartUntilTheirEnd : Prop :=
  (∀ (s : State), ∃ (n : Nat) (array : List (Nat × Cell)),
     let cut := fun (a : List (Nat × Cell)) =>
       ∀ key, (∀ p, s.journal.program = some p → key ≠ slotKey p.sector p.slot) →
         (∀ k, s.journal.batch.current = some k → keySector key ≠ k.val) → storeGet a key = storeGet s.journal.array key
     let held : State := { State.afterReset s.pending n s.journal.sectors array with inReset := true }
     exec .powerOn s = .next held ∧
     (∀ ns, 1000 ≤ ns → exec (.resetInput ns) s = .next held) ∧
     (s.inReset = false → s.resetDue = true → exec .partReset s = .next held) ∧
     cut array ∧
     (∀ ns, ns < 1000 → ∃ u m a, exec (.resetInput ns) s = .next u ∧ cut a ∧
       (u = { s with freeCount := s.freeCount + 1 } ∨
        u = { State.afterReset s.pending m s.journal.sectors a with inReset := true }))) ∧
  (∀ (s : State), exec .resetEnd s = .next { s with inReset := false }) ∧
  (∀ (c : Instr) (s : State), s.inReset = true → c ≠ .powerOn → (∀ ns, c ≠ .resetInput ns) → c ≠ .resetEnd → exec c s = .next s)

/-! ## The management links -/

/-- What any request meets at its link before its owner sees it: with three replies waiting it is discarded and counted; with another request in hand
it is answered BUSY and counted; a kind the permission map keeps from the craft link is answered DENIED and counted. That a request is discarded at
three waiting replies whether or not another is in hand is the model's (log entry 22).

BUSY_REPLY: a request of any kind byte that arrives while another is in hand is answered BUSY, or discarded while three replies wait.
UNKNOWN_REQUEST, and a tariff list of more than 8 points: answered BAD_FORM, unless the link meets them as above. -/
def Obligations.ALinkRefusesWhatItCannotTake : Prop :=
  (∀ (c : Instr) (h : Head) (k : ReqKind) (s : State), requestOf c = some (h, k) → s.inReset = false →
     (3 ≤ (s.link h.link).replies.length →
       exec c s = .next ((s.hunt h.link).modLink h.link (fun x => { x with busyDiscards := bump x.busyDiscards }))) ∧
     ((s.link h.link).replies.length < 3 → (s.link h.link).inHand.isSome = true →
       exec c s = .next (((s.hunt h.link).modLink h.link (fun x => { x with busyAnswers := bump x.busyAnswers })).reply h k.byte
         { code := .busy } false)) ∧
     ((s.link h.link).replies.length < 3 → (s.link h.link).inHand = none → formGood c = true → s.permitted h.link k = false →
       exec c s = .next (((s.taken h k.byte).modLink h.link (fun x => { x with denied := bump x.denied })).answer h k
         { code := .denied }))) ∧
  (∀ (h : Head) (kind : Byte) (s : State), s.inReset = false →
     ((s.link h.link).inHand.isSome = true → (s.link h.link).replies.length < 3 →
       exec (.busyReply h kind) s =
         .next (((s.hunt h.link).modLink h.link (fun x => { x with busyAnswers := bump x.busyAnswers })).reply h kind
           { code := .busy } false)) ∧
     ((s.link h.link).inHand.isSome = true → 3 ≤ (s.link h.link).replies.length →
       exec (.busyReply h kind) s =
         .next ((s.hunt h.link).modLink h.link (fun x => { x with busyDiscards := bump x.busyDiscards }))) ∧
     ((s.link h.link).inHand.isSome = true → exec (.unknownRequest h kind) s = exec (.busyReply h kind) s) ∧
     ((s.link h.link).inHand = none → (s.link h.link).replies.length < 3 →
       exec (.unknownRequest h kind) s = .next ((s.taken h kind).reply h kind { code := .badForm } true) ∧
       ∀ points : List ChangePoint, 8 < points.length →
         exec (.setTariff h points) s = .next ((s.taken h ReqKind.setTariff.byte).answer h .setTariff { code := .badForm })))

/-- When the controller link finishes a frame: the reply of the request in hand leaves it free for the next request, the DONE reply of a RESTART_PART
makes the part reset due, and the arbiter takes the reply list, the notice set, or, when both wait, the one it did not take last time; while the
journal is SCANNING no notice is taken. A craft side that is sending, or has nothing to send, is left alone.

When the craft link finishes a line, the reply of the request in hand leaves it free for the next request, and the reply list goes out in order. A
controller side that is sending is left alone. -/
def Obligations.TransmitSidesSendInTurn : Prop :=
  (∀ (s : State) (x : TxItem), s.inReset = false → s.links.controller.sending = some x →
     (s.links.craft.sending.isSome = true ∨ s.links.craft.replies = []) →
     let ns := if s.journal.condition = .scanning then [] else s.links.notices
     let k : LinkState := { s.links.controller with inHand := if x.isOwn then none else s.links.controller.inHand }
     let after := fun (k : LinkState) (notices : List Notice) (took : Bool) =>
       { s with resetDue := s.resetDue || x.restarts
                links := { s.links with controller := k, notices := notices, tookReply := took } }
     (k.replies = [] → ns = [] →
       exec (.transmitComplete .controller) s = .next (after { k with sending := none } s.links.notices s.links.tookReply)) ∧
     (∀ r rs, k.replies = r :: rs → ns = [] →
       exec (.transmitComplete .controller) s =
         .next (after { k with sending := some (.reply r), replies := rs } s.links.notices true)) ∧
     (∀ n more, k.replies = [] → ns = n :: more →
       exec (.transmitComplete .controller) s = .next (after { k with sending := some (.notice n) } more false)) ∧
     (∀ r rs n more, k.replies = r :: rs → ns = n :: more →
       exec (.transmitComplete .controller) s =
         if s.links.tookReply then .next (after { k with sending := some (.notice n) } more false)
         else .next (after { k with sending := some (.reply r), replies := rs } s.links.notices true))) ∧
  (∀ (s : State) (x : TxItem), s.inReset = false → s.links.craft.sending = some x → s.links.controller.sending.isSome = true →
     let k : LinkState := { s.links.craft with inHand := if x.isOwn then none else s.links.craft.inHand }
     (k.replies = [] →
       exec (.transmitComplete .craft) s = .next { s with links := { s.links with craft := { k with sending := none } } }) ∧
     (∀ r rs, k.replies = r :: rs →
       exec (.transmitComplete .craft) s =
         .next { s with links := { s.links with craft := { k with sending := some (.reply r), replies := rs } } }))

/-- IDENTIFY, READ_PERMISSION, SET_PERMISSION and RESTART_PART, each on a link that can hand it on. SET_PERMISSION with a code that names no kind is
refused BAD_VALUE, with one of the six kinds fixed at level 0 CONFLICT; else that one entry of the map takes the value. RESTART_PART changes nothing
but for its reply. -/
def Obligations.LinkRequestsAnswer : Prop :=
  ∀ (s : State) (h : Head),
    (s.ready h .identify = true →
      exec (.identify h) s = .next ((s.taken h ReqKind.identify.byte).answer h .identify
        { code := .done
          values := .identify
            { frame := s.time.frame, seconds := s.time.seconds, link := h.link, level := if h.link = .controller then 0 else 1
              controller := { busyAnswers := s.links.controller.busyAnswers, busyDiscards := s.links.controller.busyDiscards,
                              denied := s.links.controller.denied }
              craft := { busyAnswers := s.links.craft.busyAnswers, busyDiscards := s.links.craft.busyDiscards,
                         denied := s.links.craft.denied }
              discarded := s.links.discarded } })) ∧
    (s.ready h .readPermission = true →
      exec (.readPermission h) s = .next ((s.taken h ReqKind.readPermission.byte).answer h .readPermission
        { code := .done, values := .permissions (ReqKind.all.map (fun k => (k, s.permitted .craft k,
            decide (k ∈ [ReqKind.setPermission, .restartPart, .restartTree, .exportDone, .expelHome, .barSerial])))) })) ∧
    (s.ready h .restartPart = true →
      exec (.restartPart h) s = .next ((s.taken h ReqKind.restartPart.byte).answer h .restartPart { code := .done })) ∧
    (∀ code allow, s.ready h .setPermission = true →
      ((code = 0 ∨ 37 < code) →
        exec (.setPermission h code allow) s =
          .next ((s.taken h ReqKind.setPermission.byte).answer h .setPermission { code := .badValue })) ∧
      (∀ k : ReqKind, code = k.code →
        (k ∈ [ReqKind.setPermission, .restartPart, .restartTree, .exportDone, .expelHome, .barSerial] →
          exec (.setPermission h code allow) s =
            .next ((s.taken h ReqKind.setPermission.byte).answer h .setPermission { code := .conflict })) ∧
        (k ∉ [ReqKind.setPermission, .restartPart, .restartTree, .exportDone, .expelHome, .barSerial] →
          ∃ allowed : List ReqKind,
            exec (.setPermission h code allow) s =
              .next (({ s.taken h ReqKind.setPermission.byte with
                links := { (s.taken h ReqKind.setPermission.byte).links with allowed := allowed } }).answer h .setPermission
                  { code := .done }) ∧
            ∀ x : ReqKind, x ∈ allowed ↔ (if x = k then allow = true else x ∈ s.links.allowed))))

/-- The controller link's receiver, byte by byte: hunting for A5h, gathering, and judging the two length bytes; FRAME_DISCARDED and BYTE_GAP_TIMEOUT
end a frame as discarded, count it, and leave the receiver hunting. The craft link gathers a line.

A few frames and lines written out from R184, R185 and R188 make the requests they stand for. The kind byte of a line that cannot be read is the
model's (log entry 25). -/
def Obligations.ReceiversGatherAndWrittenOutRequestsAreRead : Prop :=
  (∀ (s : State) (b : Byte), s.inReset = false →
     let holding := fun (rx : Option (List Byte)) => ({ s with links := { s.links with frameRx := rx } } : State)
     let dropped := fun (rx : Option (List Byte)) =>
       ({ s with links := { s.links with frameRx := rx, discarded := bump s.links.discarded } } : State)
     let again := fun (b1 b2 : Byte) =>
       if b1 = 0xA5#8 then some [b2] else if b2 = 0xA5#8 then some [] else none
     (s.links.frameRx = none → exec (.byteReceived .controller b) s = .next (holding (if b = 0xA5#8 then some [] else none))) ∧
     (s.links.frameRx = some [] → exec (.byteReceived .controller b) s = .next (holding (some [b]))) ∧
     (∀ b1, s.links.frameRx = some [b1] →
       exec (.byteReceived .controller b) s =
         if 3 ≤ 256 * b1.toNat + b.toNat ∧ 256 * b1.toNat + b.toNat ≤ 1023 then .next (holding (some [b1, b]))
         else .next (dropped (again b1 b))) ∧
     (∀ b1 b2 rest, s.links.frameRx = some (b1 :: b2 :: rest) → 3 ≤ 256 * b1.toNat + b2.toNat →
       256 * b1.toNat + b2.toNat ≤ 1023 → rest.length + 1 < 256 * b1.toNat + b2.toNat + 2 →
       exec (.byteReceived .controller b) s = .next (holding (some (b1 :: b2 :: (rest ++ [b]))))) ∧
     (∀ b1 b2 : Byte, (256 * b1.toNat + b2.toNat < 3 ∨ 1023 < 256 * b1.toNat + b2.toNat) →
       exec (.frameDiscarded (.badLength b1 b2)) s = .next (dropped (again b1 b2))) ∧
     exec (.frameDiscarded .badCheck) s = .next (dropped none) ∧
     (s.links.frameRx.isSome = true → exec .byteGapTimeout s = .next (dropped none)) ∧
     (b ≠ 0x0A#8 →
       exec (.byteReceived .craft b) s = .next { s with links := { s.links with lineRx := s.links.lineRx ++ [b] } })) ∧
  (decodeFrame 0x03#8 0x11#8 0x0F#8 [0x01#8, 0x02#8, 0x00#8, 0x0E#8, 0x10#8] =
     .setClock { link := .controller, tag := 0x11#8, tree := 15 } 258 3600 ∧
   decodeFrame 0x0D#8 0x01#8 0x02#8 [0x00#8, 0x1A#8, 0x2B#8, 0x3C#8, 0x4D#8, 0x5E#8] =
     .allowSerial { link := .controller, tag := 0x01#8, tree := 2 } 0x001A2B3C4D5E#48 ∧
   decodeFrame 0x1B#8 0x05#8 0x0F#8 [0x02#8, 0x00#8, 0x62#8, 0x70#8, 0x01#8, 0x01#8, 0x0B#8, 0x30#8, 0x02#8] =
     .setTariff { link := .controller, tag := 0x05#8, tree := 15 } [{ second := 25200, band := 1 }, { second := 68400, band := 2 }] ∧
   decodeFrame 0x07#8 0x00#8 0x00#8 [0x00#8] = .unknownRequest { link := .controller, tag := 0x00#8, tree := 0 } 0x07#8 ∧
   decodeFrame 0x26#8 0x00#8 0x00#8 [] = .unknownRequest { link := .controller, tag := 0x00#8, tree := 0 } 0x26#8 ∧
   decodeLine (ascii "SET_TARIFF points=25200:1,68400:2") =
     .setTariff { link := .craft, tag := 0, tree := 0 } [{ second := 25200, band := 1 }, { second := 68400, band := 2 }] ∧
   decodeLine (ascii "READ_HOME 1 line=7") = .readHome { link := .craft, tag := 0, tree := 1 } 7 ∧
   decodeLine (ascii "READ_HOME 1") = .unknownRequest { link := .craft, tag := 0, tree := 0 } 0x12#8)

/-- A whole frame of Table 1-8 with a good check, fed byte by byte to a hunting receiver, has the effect of its request; one whose check fails is
discarded and counted. A craft line fed up to its line feed has the effect of its request; an empty line has none.

Whatever bytes a frame of good length holds, what it makes is a well-formed command of the controller link: a request, or an UNKNOWN_REQUEST. That
the last byte of a frame or a line brings its request in one event is the model's reading (log entry 15). -/
def Obligations.FramesAndLinesBringWellFormedCommands : Prop :=
  (∀ (s : State), s.inReset = false →
     (∀ (kind tag tree : Byte) (body : List Byte), s.links.frameRx = none → body.length ≤ 1020 →
       feed .controller (linkFrame kind tag tree.toNat body) s = exec (decodeFrame kind tag tree body) s ∧
       ∀ c1 c2 : Byte, [c1, c2] ≠ bytesOf 2 (check16 (bytesOf 2 (body.length + 3) ++ [kind, tag, tree] ++ body)).toNat →
         feed .controller ([0xA5#8] ++ bytesOf 2 (body.length + 3) ++ [kind, tag, tree] ++ body ++ [c1, c2]) s =
           exec (.frameDiscarded .badCheck) s) ∧
     (∀ line : List Byte, s.links.lineRx = [] → 0x0A#8 ∉ line → line.getLast? ≠ some 0x0D#8 →
       feed .craft (line ++ [0x0A#8]) s = (if line = [] then .next s else exec (decodeLine line) s) ∧
       feed .craft (line ++ [0x0D#8, 0x0A#8]) s = (if line = [] then .next s else exec (decodeLine line) s))) ∧
  (∀ (kind tag tree : Byte) (body : List Byte),
     (decodeFrame kind tag tree body).wellFormed = true ∧
     ((∃ h k, requestOf (decodeFrame kind tag tree body) = some (h, k) ∧ k.byte = kind ∧
         h = { link := .controller, tag := tag, tree := tree.toNat }) ∨
       decodeFrame kind tag tree body = .unknownRequest { link := .controller, tag := tag, tree := tree.toNat } kind))

/-- The body of every request, laid out in the catalogue's order, is read back as that request: no argument and no presence byte is dropped. -/
def Obligations.RequestBodiesAreReadBack : Prop :=
  ∀ (c : Instr) (h : Head) (k : ReqKind), requestOf c = some (h, k) → h.link = .controller → c.wellFormed = true →
    decodeFrame k.byte h.tag (BitVec.ofNat 8 h.tree) (requestBody c) = c

/-- The notice set: raising a notice keeps at most one entry per key; a key that is held has its count raised up to 65,535 with its details and its
place kept; a new key stands at the end with count 1; and with 185 entries or more the notice of a single line that is not held folds into the key
of all lines of its tree. -/
def Obligations.TheNoticeSetHoldsOneEntryPerKey : Prop :=
  ∀ (ns : List Notice) (kind : NoticeKind) (tree : Option TreeId) (line : KeyLine) (d : Details), keysDistinct ns →
    let held := fun (k : KeyLine) => ∃ n ∈ ns, n.kind = kind ∧ n.tree = tree ∧ n.line = k
    let fold := fun (k : KeyLine) (out : List Notice) =>
      (held k → out = ns.map (fun n =>
        if n.kind = kind ∧ n.tree = tree ∧ n.line = k then { n with count := min (n.count + 1) 65535 } else n)) ∧
      (¬ held k → out = ns ++ [{ kind := kind, tree := tree, line := k, count := 1, details := d }])
    keysDistinct (addNotice ns kind tree line d) ∧
    ((∀ l, line ≠ .line l) → fold line (addNotice ns kind tree line d)) ∧
    (∀ l, line = .line l → (held line ∨ ns.length < 185) → fold line (addNotice ns kind tree line d)) ∧
    (∀ l, line = .line l → ¬ held line → 185 ≤ ns.length → fold .all (addNotice ns kind tree line d))

/-! ## The serial directory -/

/-- ALLOW_SERIAL, for every entry the serial may have. A tree field that is neither 0..3 nor 15 is refused BAD_VALUE.

DISALLOW_SERIAL, BAR_SERIAL and PIN_SERIAL, for every entry the serial may have.

READ_DIRECTORY: the link's cursor is first set to the start named, brought down to 1,024; up to 16 entries on the controller link and 4 on the
craft link are returned from it on, in ascending order of position; and the cursor goes to the position after the last of them, or to 1,024 when no
more follow. The other link's cursor stays. -/
def Obligations.DirectoryRequestsActOnTheEntriesFound : Prop :=
  ((∀ (s : State) (h : Head) (x : Serial), s.ready h .allowSerial = true →
      let a := s.taken h ReqKind.allowSerial.byte
      let reply := fun (u : State) (c : Code) => (.next (u.answer h .allowSerial { code := c }) : Host.Outcome State Fault Refusal)
      let put := fun (p : Nat) (b : DirBody) => a.withDirectory (storePut s.directory p { serial := x, body := b })
      (4 ≤ h.tree → h.tree ≠ 15 → exec (.allowSerial h x) s = reply a .badValue) ∧
      ∀ binding : Option TreeId, (h.tree = 15 ∧ binding = none ∨ ∃ t : TreeId, h.tree = t.val ∧ binding = some t) →
        (dirLookup s.directory x = none →
          (∀ p, dirWay s.directory x = some p → exec (.allowSerial h x) s = reply (put p (.expected binding false)) .done) ∧
          (dirWay s.directory x = none → exec (.allowSerial h x) s = reply a .full)) ∧
        (∀ p t age, dirLookup s.directory x = some (p, { serial := x, body := .refused t age }) →
          exec (.allowSerial h x) s = reply (put p (.expected binding false)) .done) ∧
        (∀ p old pin, dirLookup s.directory x = some (p, { serial := x, body := .expected old pin }) →
          exec (.allowSerial h x) s = reply (put p (.expected binding pin)) .done) ∧
        (∀ p t l o pin age, dirLookup s.directory x = some (p, { serial := x, body := .present t l o pin age }) →
          exec (.allowSerial h x) s = reply (put p (.present t l (.listed binding) pin age)) .done) ∧
        (∀ p age, dirLookup s.directory x = some (p, { serial := x, body := .barred age }) →
          exec (.allowSerial h x) s = reply a .conflict)) ∧
   (∀ (s : State) (h : Head) (x : Serial),
      let reply := fun (k : ReqKind) (d : List (Nat × DirEntry)) (c : Code) =>
        (.next (((s.taken h k.byte).withDirectory d).answer h k { code := c }) : Host.Outcome State Fault Refusal)
      let put := fun (p : Nat) (b : DirBody) => storePut s.directory p { serial := x, body := b }
      let none_ := dirLookup s.directory x = none
      let found := fun (p : Nat) (b : DirBody) => dirLookup s.directory x = some (p, { serial := x, body := b })
      (s.ready h .disallowSerial = true →
        (none_ → exec (.disallowSerial h x) s = reply .disallowSerial s.directory .notFound) ∧
        (∀ p b, found p b → (∀ t l o pin age, b ≠ .present t l o pin age) →
          exec (.disallowSerial h x) s = reply .disallowSerial (storeDel s.directory p) .done) ∧
        (∀ p t l o pin age, found p (.present t l o pin age) →
          exec (.disallowSerial h x) s = reply .disallowSerial (put p (.present t l .opened pin age)) .done)) ∧
      (s.ready h .barSerial = true →
        (none_ →
          (∀ p, dirWay s.directory x = some p → exec (.barSerial h x) s = reply .barSerial (put p (.barred none)) .done) ∧
          (dirWay s.directory x = none → exec (.barSerial h x) s = reply .barSerial s.directory .full)) ∧
        (∀ p b pin, found p (.expected b pin) → exec (.barSerial h x) s = reply .barSerial (put p (.barred none)) .done) ∧
        (∀ p t age, found p (.refused t age) → exec (.barSerial h x) s = reply .barSerial (put p (.barred none)) .done) ∧
        (∀ p age, found p (.barred age) → exec (.barSerial h x) s = reply .barSerial s.directory .done) ∧
        (∀ p t l o pin age, found p (.present t l o pin age) →
          exec (.barSerial h x) s = reply .barSerial s.directory .conflict)) ∧
      (s.ready h .pinSerial = true → ∀ pin : Bool,
        (none_ → exec (.pinSerial h x pin) s = reply .pinSerial s.directory .notFound) ∧
        (∀ p b old, found p (.expected b old) →
          exec (.pinSerial h x pin) s = reply .pinSerial (put p (.expected b pin)) .done) ∧
        (∀ p t l o old age, found p (.present t l o old age) →
          exec (.pinSerial h x pin) s = reply .pinSerial (put p (.present t l o pin age)) .done) ∧
        (∀ p t age, found p (.refused t age) → exec (.pinSerial h x pin) s = reply .pinSerial s.directory .conflict) ∧
        (∀ p age, found p (.barred age) → exec (.pinSerial h x pin) s = reply .pinSerial s.directory .conflict)))) ∧
  (∀ (s : State) (h : Head) (start : Option Nat), s.ready h .readDirectory = true →
     let cursor := match start with
       | some n => min n 1024
       | none => (s.link h.link).dirCursor
     let limit := if h.link = .controller then 16 else 4
     let ahead := s.directory.filter (fun p => cursor ≤ p.1)
     ∃ next : Nat,
       exec (.readDirectory h start) s =
         .next (((s.taken h ReqKind.readDirectory.byte).modLink h.link (fun k => { k with dirCursor := next })).answer h .readDirectory
           { code := if (∃ n, start = some n ∧ 1024 < n) then .clamped else .done
             field := if (∃ n, start = some n ∧ 1024 < n) then some 1 else none
             values := .directory (ahead.take limit) next }) ∧
       (ahead.length ≤ limit → next = 1024) ∧
       (∀ p, limit < ahead.length → ahead[limit - 1]? = some p → next = p.1 + 1))

/-- The bucket of a serial is the sum of its six bytes modulo 256; a lookup finds the entry of the serial in a way of its bucket; a new entry takes
the lowest empty way, else the way of the REFUSED entry of greatest age, the lower way of two that are as old; with four ways that are occupied and
not REFUSED there is no room. -/
def Obligations.PlacingFollowsTheWaysOfTheBucket : Prop :=
  ∀ (d : List (Nat × DirEntry)) (x : Serial),
    let ways := [4 * bucketOf x, 4 * bucketOf x + 1, 4 * bucketOf x + 2, 4 * bucketOf x + 3]
    let refusedAt := fun (p age : Nat) => ∃ y t, storeGet d p = some { serial := y, body := .refused t age }
    bucketOf x = (x.toNat % 256 + x.toNat / 256 % 256 + x.toNat / 65536 % 256 + x.toNat / 16777216 % 256 +
      x.toNat / 4294967296 % 256 + x.toNat / 1099511627776 % 256) % 256 ∧
    (∀ p e, dirLookup d x = some (p, e) → p ∈ ways ∧ storeGet d p = some e ∧ e.serial = x) ∧
    (dirLookup d x = none → ∀ p ∈ ways, ∀ e, storeGet d p = some e → e.serial ≠ x) ∧
    (∀ w, dirWay d x = some w →
      w ∈ ways ∧
      ((storeGet d w = none ∧ ∀ p ∈ ways, p < w → storeGet d p ≠ none) ∨
       ((∀ p ∈ ways, storeGet d p ≠ none) ∧
        ∃ age, refusedAt w age ∧ ∀ p ∈ ways, ∀ a, refusedAt p a → a < age ∨ (a = age ∧ w ≤ p)))) ∧
    (dirWay d x = none ↔ ∀ p ∈ ways, storeGet d p ≠ none ∧ ∀ a, ¬ refusedAt p a)

/-- SECOND_EVENT: the second is counted, the clock ticks, every entry ages as R33 says, and each LOST slot whose entry then stands at or above the
hold time is told, unless it has been. Nothing else changes where the clock is unset or its new second is no change point; where it is one, every
open account then closes (R151).

REFUSED_ENTRY_EXPIRY, as the model places it beside SECOND_EVENT (log entry 7): while a second event has fallen and is not taken, a REFUSED entry of
age 63 is removed. HOLD_EXPIRY, a step of its own (log entry 8), and HOLD_EXPIRY_RETRY: an expiry that has been told, or that waits, offers the
DISMISS the engine still holds, frees the slot and raises HOME_GONE; while the queue refuses the DISMISS it waits.

Until the second event that tells it, READ_HOME gives 0 seconds left for a LOST home whose hold time a SET_TREE has lowered below its age: the
model's choice (log entry 52). That the seconds counted stay at 4,294,967,295 is the model's reading of R192 (log entry 75). -/
def Obligations.SecondEventsAgeTheDirectoryAndExpiriesAreTaken : Prop :=
  (∀ (s : State) (frame : Nat) (later : List Nat), s.inReset = false → s.storesWf = true → s.time.secondsDue = frame :: later →
     let clock : Option Clock := s.meter.clock.map (fun c =>
       if c.second < 86399 then { c with second := c.second + 1 }
       else { day := if c.day < 65535 then c.day + 1 else 0, second := 0 })
     let aged : DirBody → Option DirBody := fun b => match b with
       | .refused t age => if age + 1 < 64 then some (.refused t (age + 1)) else none
       | .barred (some age) => some (.barred (some (if age < 64 then age + 1 else age)))
       | .present t l o pin (some age) =>
         some (.present t l o pin
           (some (if (s.slot t l).state = .lost ∧ age < (s.tree t).settings.hold then age + 1 else age)))
       | b => some b
     let plain := fun (t : State) =>
       t = { s with time := { s.time with secondsDue := later, seconds := bump s.time.seconds, lastSecond := some frame }
                    meter := { s.meter with clock := clock }, directory := t.directory, trees := t.trees } ∧
       (∀ p, storeGet t.directory p =
         (storeGet s.directory p).bind (fun e => (aged e.body).map (fun b => { e with body := b }))) ∧
       ∀ u, t.tree u = { s.tree u with slots := (t.tree u).slots } ∧
         ∀ l,
           let due := (s.slot u l).state = .lost ∧ (s.slot u l).expiry = .quiet ∧
             ∃ p e o pin age, storeGet t.directory p = some e ∧ e.body = .present u l o pin (some age) ∧
               (s.tree u).settings.hold ≤ age
           (due → t.slot u l = { s.slot u l with expiry := .told }) ∧ (¬ due → t.slot u l = s.slot u l)
     ((∀ c, clock = some c → ∀ p ∈ s.meter.schedule, p.second ≠ c.second) → ∃ t, exec .secondEvent s = .next t ∧ plain t) ∧
     ∀ c, clock = some c → (∃ p ∈ s.meter.schedule, p.second = c.second) →
       ∃ t, plain t ∧ exec .secondEvent s = .next (t.closeTrees allTrees).1) ∧
  ((∀ (s : State) (x : Serial) (p : Nat) (t : TreeId), s.inReset = false → s.time.secondsDue ≠ [] →
     dirLookup s.directory x = some (p, { serial := x, body := .refused t 63 }) →
     exec (.refusedEntryExpiry x) s = .next { s with directory := storeDel s.directory p }) ∧
   (∀ (s : State) (t : TreeId) (l : Line), s.inReset = false → (s.slot t l).state = .lost →
     let gone := fun (u : State) => (u.freeSlot t l .left).raiseHome .homeGone t l (.serial ((s.serialOf t l).getD 0))
     let taken := fun (c : Instr) =>
       (l ∉ (s.tree t).engine.dismissHeld → exec c s = .next (gone s)) ∧
       (l ∈ (s.tree t).engine.dismissHeld → (s.tree t).framer.count < 64 →
         exec c s = .next (gone (s.modTree t (fun T => { T with framer := T.framer.add (.dismiss l) })))) ∧
       (l ∈ (s.tree t).engine.dismissHeld → 64 ≤ (s.tree t).framer.count →
         exec c s = .next (s.modSlot t l (fun x => { x with expiry := .waits })))
     ((s.slot t l).expiry = .told → taken (.holdExpiry t l)) ∧
     ((s.slot t l).expiry = .waits → taken (.holdExpiryRetry t l)))) ∧
  ∀ (s : State) (h : Head) (t : TreeId) (l : Line) (p : Nat) (e : DirEntry) (u : TreeId) (k : Line) (o : Origin) (pin : Bool) (age : Nat),
    s.ready h .readHome = true → h.tree = t.val → (s.slot t l).state = .lost → (s.slot t l).link = some p →
    storeGet s.directory p = some e → e.body = .present u k o pin (some age) → (s.tree t).settings.hold < age →
    ∃ v : HomeView, v.holdLeft = some 0 ∧
      exec (.readHome h l.val) s = .next ((s.taken h ReqKind.readHome.byte).answer h .readHome { code := .done, values := .home v })

/-! ## The home table and the enrolment engine -/

/-- READ_HOME: the slot's present contents, or BAD_VALUE for a tree or a line out of its range (tree 15 among them). The seconds left of a LOST home
whose hold time a SET_TREE has lowered below its age are stated in SecondEventsAgeTheDirectoryAndExpiriesAreTaken. -/
def Obligations.ReadHomeGivesTheSlot : Prop :=
  ∀ (s : State) (h : Head) (line : Nat), s.ready h .readHome = true →
    let reply := fun (a : Answer) => exec (.readHome h line) s = .next ((s.taken h ReqKind.readHome.byte).answer h .readHome a)
    ((4 ≤ h.tree ∨ 128 ≤ line) → reply { code := .badValue }) ∧
    ∀ (t : TreeId) (l : Line), h.tree = t.val → line = l.val →
      let x := s.slot t l
      ∃ v : HomeView, reply { code := .done, values := .home v } ∧
        v.state = x.state ∧ v.cause = (if x.state = .quarantined then x.cause else none) ∧
        (x.link = none → v.serial = none) ∧
        (∀ p e, x.link = some p → storeGet s.directory p = some e → v.serial = some e.serial) ∧
        v.eqd = x.eqd ∧ v.miss = x.miss ∧ v.drift = x.drift ∧ v.misplaced = x.misplaced ∧ v.overruns = x.overruns ∧
        v.cooldown = x.cooldown ∧ v.muted = x.muted ∧ v.sinceGrant = x.sinceGrant ∧
        (x.state ≠ .lost → v.holdLeft = none) ∧
        (∀ p e u k o pin age, x.state = .lost → x.link = some p → storeGet s.directory p = some e →
          e.body = .present u k o pin (some age) → age ≤ (s.tree t).settings.hold →
          v.holdLeft = some ((s.tree t).settings.hold - age)) ∧
        (v.closeDue = true ↔ ∃ r r2, x.account = .due r r2)

/-- DISMISS_HOME and EXPEL_HOME: BAD_VALUE for a tree or a line out of its range, CONFLICT for a FREE slot, BUSY with nothing changed while the queue
refuses the DISMISS; else the DISMISS is queued and the slot freed in the same event. -/
def Obligations.DismissalQueuesTheDismissAndFreesTheSlot : Prop :=
  ∀ (s : State) (h : Head) (line : Nat),
    let both := fun (c : Instr) (k : ReqKind) (cause : FreeCause) =>
      let a := s.taken h k.byte
      let reply := fun (u : State) (code : Code) => exec c s = .next (u.answer h k { code := code })
      s.ready h k = true →
        ((4 ≤ h.tree ∨ 128 ≤ line) → reply a .badValue) ∧
        ∀ (t : TreeId) (l : Line), h.tree = t.val → line = l.val →
          ((s.slot t l).state = .free → reply a .conflict) ∧
          ((s.slot t l).state ≠ .free → 64 ≤ (s.tree t).framer.count → reply a .busy) ∧
          ((s.slot t l).state ≠ .free → (s.tree t).framer.count < 64 →
            reply ((a.modTree t (fun T => { T with framer := { T.framer with urgent := T.framer.urgent ++ [.dismiss l] } })).freeSlot
              t l cause) .done)
    both (.dismissHome h line) .dismissHome .left ∧ both (.expelHome h line) .expelHome .expelled

/-- Freeing a slot makes the hand-offs of R21: the entry is released as the cause requires, the line's ASSIGN, DELAY, MUTE and UNMUTE are withdrawn,
an open account is closed into the queue or becomes a close due, its carries as a second record (R17), the slot's context is released, and every
field takes its FREE value. Each packet of its queue counts as flushed, and a turn of the rotation open on it is closed (R135). The other slots of
the tree, the other trees and the journal keep what they hold. -/
def Obligations.FreeingASlotHandsItOff : Prop :=
  ∀ (s : State) (t : TreeId) (l : Line) (cause : FreeCause),
    let u := s.freeSlot t l cause
    let x := s.slot t l
    u.slot t l = { Slot.free with account := (u.slot t l).account } ∧
    (∀ k, k ≠ l → u.slot t k = s.slot t k) ∧ (∀ v, v ≠ t → u.tree v = s.tree v) ∧ u.journal = s.journal ∧ u.links = s.links ∧
    (u.tree t).framer.urgent = (s.tree t).framer.urgent.filter (fun m => !m.withdrawn l) ∧
    (u.tree t).framer.ordinary = (s.tree t).framer.ordinary.filter (fun m => !m.withdrawn l) ∧
    l ∉ (u.tree t).engine.dismissHeld ∧
    (u.tree t).traffic = { (s.tree t).traffic with
      flushed := min ((s.tree t).traffic.flushed + x.queue.length) 4294967295
      openTurn := if (s.tree t).traffic.rotation = l then false else (s.tree t).traffic.openTurn } ∧
    (∀ (i : Fin 4) c, (s.tree t).engine.contexts[i] = some c → c.line = l →
      (∀ (j : Fin 4) d, j < i → (s.tree t).engine.contexts[j] = some d → d.line ≠ l) →
      (u.tree t).engine.contexts = (s.tree t).engine.contexts.set i none) ∧
    ((∀ a, x.account ≠ .opened a) → (u.slot t l).account = x.account ∧ u.meter = s.meter) ∧
    (∀ a, x.account = .opened a → a.carries = {} →
      let r := recordOf a t l (if cause = .treeRestart then .treeRestart else .final) (decide (cause = .moved)) s.meter.clock
      (s.meter.queue.length < 1024 →
        (u.slot t l).account = .empty ∧ u.meter = { s.meter with queue := s.meter.queue ++ [r] }) ∧
      (1024 ≤ s.meter.queue.length →
        (u.slot t l).account = .due r none ∧
        u.meter = { s.meter with due := s.meter.due ++ [(t, l)], dueCloses := bump s.meter.dueCloses })) ∧
    (∀ a, x.account = .opened a → a.carries ≠ {} →
      let r := recordOf a t l (if cause = .treeRestart then .treeRestart else .final) (decide (cause = .moved)) s.meter.clock
      let r2 : Record := { r with counts := a.carries }
      let due := { s.meter with due := s.meter.due ++ [(t, l)], dueCloses := bump s.meter.dueCloses }
      (s.meter.queue.length < 1023 →
        (u.slot t l).account = .empty ∧ u.meter = { s.meter with queue := s.meter.queue ++ [r, r2] }) ∧
      (s.meter.queue.length = 1023 →
        (u.slot t l).account = .due r2 none ∧ u.meter = { due with queue := s.meter.queue ++ [r] }) ∧
      (1024 ≤ s.meter.queue.length → (u.slot t l).account = .due r (some r2) ∧ u.meter = due)) ∧
    (x.link = none → u.directory = s.directory) ∧
    (∀ p e v k o pin age, x.link = some p → storeGet s.directory p = some e → e.body = .present v k o pin age →
      (cause = .moved → u.directory = s.directory) ∧
      (cause = .expelled → u.directory = storePut s.directory p { e with body := .barred none }) ∧
      ((cause = .left ∨ cause = .treeRestart) →
        (∀ b, o = .listed b → u.directory = storePut s.directory p { e with body := .expected b pin }) ∧
        (o = .opened → u.directory = storeDel s.directory p)))

/-- The discovery schedule. DISCOVERY_WINDOW_OPEN, after the frame start of frame n with the five conditions met, offers a CALL for frame n + 2:
accepted, the window is SCHEDULED; refused, the engine keeps it for CALL_REOFFER at frame start n + 1, which offers the same CALL again and, refused
again, skips the window. QUIET_WINDOW_END makes an OPEN record absent. That a refused CALL is also given up once a search runs, discovery is off or
its target frame has come is the model's (log entry 9), and so is that a window scheduled by the second offer has the ERT of the first (log entry
71). -/
def Obligations.DiscoveryWindowsAreScheduled : Prop :=
  ∀ (s : State) (t : TreeId) (n : Nat), s.inReset = false → s.lastStarted t = some n →
    let T := s.tree t
    let call := fun (w : Window) => LineMsg.call (625 * w.reach) (625 * w.reach + 3128) w.target
    let scheduled := fun (w : Window) => s.modTree t (fun T =>
      { T with framer := { T.framer with ordinary := T.framer.ordinary ++ [call w] }
               engine := { T.engine with counter := 0, window := some w, refusedCall := none, opened := bump T.engine.opened }
               planner := { T.planner with quiet := some (w.target, 625 * w.reach + 3128) } })
    let skipped := s.modTree t (fun T =>
      { T with framer := T.framer.keep (fun m => !m.isCall)
               engine := { T.engine with counter := 0, window := none, refusedCall := none, skipped := bump T.engine.skipped }
               planner := { T.planner with quiet := none } })
    let due := T.settings.di ≤ T.engine.counter ∧ T.settings.discovery = true ∧ T.search.running = false ∧
      (∃ i : Fin 4, T.engine.contexts[i] = none) ∧ T.engine.window = none ∧ T.engine.refusedCall = none
    let w0 : Window := { target := n + 2, reach := T.settings.reach, ert := T.settings.ert, opened := false }
    (due → T.framer.count < 64 → exec (.discoveryWindowOpen t) s = .next (scheduled w0)) ∧
    (due → 64 ≤ T.framer.count →
      exec (.discoveryWindowOpen t) s = .next (s.modTree t (fun T => { T with engine := { T.engine with refusedCall := some w0 } }))) ∧
    (¬ due → exec (.discoveryWindowOpen t) s = .next s) ∧
    (∀ w, T.engine.refusedCall = some w →
      (T.search.running = false → T.settings.discovery = true → w.target = n + 1 →
        (T.framer.count < 64 → exec (.callReoffer t) s = .next (scheduled w)) ∧
        (64 ≤ T.framer.count → exec (.callReoffer t) s = .next skipped)) ∧
      ((T.search.running = true ∨ T.settings.discovery = false ∨ w.target ≤ n) → exec (.callReoffer t) s = .next skipped)) ∧
    (∀ w, T.engine.window = some w → w.opened = true →
      exec (.quietWindowEnd t) s = .next (s.modTree t (fun T => { T with engine := { T.engine with window := none } })))

/-- HELLO, a burst that lies within an OPEN window, where it is not used or comes from beyond the reach: a failed check, a random delay above 3,000
SU and a negative coarse round trip count as collisions, a search running or not (log entry 54); while a search runs any other hello is deferred;
and beyond the ERT OUT_OF_REACH is raised, with the line the serial holds on this tree, and with none for any other serial, be it without an entry,
EXPECTED, REFUSED, BARRED or PRESENT on another tree; no entry changes. A hold expiry of the serial's home that has been told and not taken is taken
first, as HOLD_EXPIRY takes it (R33; log entry 56). Within it, a BARRED serial raises SERIAL_REFUSED once its age is absent or 64, which then is 0,
a REFUSED one only into a notice of the tree that is unsent, a home of this tree that is QUARANTINED is left alone, and a serial PRESENT on another
tree that may not move raises SERIAL_ELSEWHERE. A burst outside an OPEN window is no hello. -/
def Obligations.HellosThatAreNotUsed : Prop :=
  (∀ (s : State) (t : TreeId) (offset : Nat) (bytes : List Byte), s.inReset = false →
    (∀ w, (s.tree t).engine.window = some w → w.opened = false ∨ 625 * w.reach + 3128 < offset + 128 ∨ bytes.length ≠ 20) →
    exec (.hello t offset bytes) s = .next s) ∧
  ∀ (s : State) (t : TreeId) (w : Window) (offset : Nat) (bytes : List Byte), s.inReset = false →
    (s.tree t).engine.window = some w → w.opened = true → offset + 128 ≤ 625 * w.reach + 3128 → bytes.length = 20 →
    let good := goodBurstCheck bytes
    let serial : Serial := BitVec.ofNat 48 (natOf (bytes.take 6))
    let delay := natOf ((bytes.drop 6).take 2)
    let coarse : Int := (w.ert : Int) + offset - 625 * w.reach - delay
    let engine := fun (f : Engine → Engine) => s.modTree t (fun T => { T with engine := f T.engine })
    ((good = false ∨ 3000 < delay ∨ coarse < 0) →
      exec (.hello t offset bytes) s = .next (engine (fun e => { e with collisions := bump e.collisions }))) ∧
    (good = true → delay ≤ 3000 → 0 ≤ coarse → (s.tree t).search.running = true →
      exec (.hello t offset bytes) s = .next (engine (fun e => { e with deferred := bump e.deferred }))) ∧
    (∀ p v l o pin age, good = true → delay ≤ 3000 → 0 ≤ coarse → (s.tree t).search.running = false → s.directoryLawful →
      dirLookup s.directory serial = some (p, { serial := serial, body := .present v l o pin age }) → (s.slot v l).state = .lost →
      (s.slot v l).expiry = .told →
      ∃ u, exec (.holdExpiry v l) s = .next u ∧ exec (.hello t offset bytes) s = exec (.hello t offset bytes) u) ∧
    ((∀ p v l o pin age, dirLookup s.directory serial = some (p, { serial := serial, body := .present v l o pin age }) →
        (s.slot v l).state = .lost → (s.slot v l).expiry ≠ .told) →
    (good = true → delay ≤ 3000 → (s.tree t).search.running = false → (w.ert : Int) < coarse →
      let taken := engine (fun e => { e with taken := bump e.taken })
      (∀ p l o pin age, dirLookup s.directory serial = some (p, { serial := serial, body := .present t l o pin age }) →
        exec (.hello t offset bytes) s = .next (taken.raise .outOfReach (some t) (.line l) (.serial serial))) ∧
      ((∀ p l o pin age, dirLookup s.directory serial ≠ some (p, { serial := serial, body := .present t l o pin age })) →
        exec (.hello t offset bytes) s = .next (taken.raise .outOfReach (some t) .none (.serial serial)))) ∧
    (good = true → delay ≤ 3000 → (s.tree t).search.running = false → 0 ≤ coarse → coarse ≤ w.ert →
      let taken := engine (fun e => { e with taken := bump e.taken })
      let hears := exec (.hello t offset bytes) s
      let refuse := fun (u : State) => u.raise .serialRefused (some t) .none (.serial serial)
      let found := fun (p : Nat) (b : DirBody) => dirLookup s.directory serial = some (p, { serial := serial, body := b })
      let unsent := ∃ n ∈ s.links.notices, n.kind = .serialRefused ∧ n.tree = some t ∧ n.line = .none
      (∀ p age, found p (.barred age) →
        ((age = none ∨ ∃ n, age = some n ∧ 64 ≤ n) →
          hears = .next (refuse (taken.withDirectory (storePut s.directory p { serial := serial, body := .barred (some 0) })))) ∧
        (∀ n, age = some n → n < 64 → hears = .next taken)) ∧
      (∀ p v age, found p (.refused v age) → (unsent → hears = .next (refuse taken)) ∧ (¬ unsent → hears = .next taken)) ∧
      (∀ p l o pin age, found p (.present t l o pin age) → (s.slot t l).state = .quarantined → hears = .next taken) ∧
      (∀ p v l o pin age, found p (.present v l o pin age) → v ≠ t →
        ((s.slot v l).state ≠ .lost ∨ pin = true ∨
          (s.tree t).settings.mode = .listed ∧ o ≠ .listed none ∧ o ≠ .listed (some t)) →
        hears = .next (taken.raise .serialElsewhere (some t) .none (.elsewhere serial v)))))

/-- HELLO, where the reach check passes and the directory has no entry of the serial or an EXPECTED one: a LISTED tree, or a binding to another tree,
refuses it with SERIAL_REFUSED; else, with an available slot and a free context, the lowest of each, the slot is ASSIGNED and linked to the claimed
entry, the context stands in DELAY_WAIT with both its messages queued, and the entry is PRESENT; with 63 entries queued its DELAY waits, with 64 its
ASSIGN. Without a slot TREE_FULL is raised; without a context the hello is deferred; where the bucket has no room for a serial without an entry
DIRECTORY_FULL is raised. That a prior-line byte of 128 or more is read as none is the model's (log entry 10). -/
def Obligations.HellosBeginEnrolments : Prop :=
  ∀ (s : State) (t : TreeId) (w : Window) (offset : Nat) (bytes : List Byte) (rtt : Nat), s.inReset = false →
    (s.tree t).engine.window = some w → w.opened = true → offset + 128 ≤ 625 * w.reach + 3128 → bytes.length = 20 →
    goodBurstCheck bytes = true → natOf ((bytes.drop 6).take 2) ≤ 3000 → (s.tree t).search.running = false → rtt ≤ w.ert →
    (w.ert : Int) + offset - 625 * w.reach - natOf ((bytes.drop 6).take 2) = rtt →
    let x : Serial := BitVec.ofNat 48 (natOf (bytes.take 6))
    let prior := natOf ((bytes.drop 8).take 1)
    let T := s.tree t
    let hears := exec (.hello t offset bytes) s
    let taken := s.modTree t (fun T => { T with engine := { T.engine with taken := bump T.engine.taken } })
    let refusedNotice := fun (u : State) => u.raise .serialRefused (some t) .none (.serial x)
    let enrols := fun (p : Nat) (origin : Origin) (pin : Bool) =>
      ((∀ l, T.available l = false) → hears = .next (taken.raise .treeFull (some t) .none (.serial x))) ∧
      (∀ l, T.available l = true → (∀ i : Fin 4, T.engine.contexts[i] ≠ none) →
        hears = .next (taken.modTree t (fun T => { T with engine := { T.engine with deferred := bump T.engine.deferred } }))) ∧
      (∀ (l : Line) (i : Fin 4), T.available l = true → (∀ k, k < l → T.available k = false) →
        T.engine.contexts[i] = none → (∀ j, j < i → T.engine.contexts[j] ≠ none) →
        (∀ (j : Fin 4) c, T.engine.contexts[j] = some c → c.line ≠ l) →
        let enters := fun (phase : Phase) (accepted : Bool) (messages : List LineMsg) =>
          let c : Context :=
            { serial := x, line := l, kind := .new, coarse := some rtt, provisional := 40 * (w.ert - rtt)
              prior := if h : prior < 128 then some ⟨prior, h⟩ else none, attempts := 0, phase := phase, accepted := accepted
              frame := none }
          hears = .next ((taken.withDirectory (storePut s.directory p { serial := x, body := .present t l origin pin none })).modTree
            t (fun T => { T with
              slots := T.slots.set l { Slot.free with state := .assigned, link := some p }
              engine := { T.engine with contexts := T.engine.contexts.set i (some c) }
              framer := { T.framer with ordinary := T.framer.ordinary ++ messages } }))
        (T.framer.count < 63 → enters .delayWait true [.assign x l, .delay l (40 * (w.ert - rtt)) .provisional]) ∧
        (T.framer.count = 63 → enters .delayWait false [.assign x l]) ∧ (64 ≤ T.framer.count → enters .assignWait false []))
    (dirLookup s.directory x = none → T.settings.mode = .listed →
      (∀ p, dirWay s.directory x = some p →
        hears = .next (refusedNotice (taken.withDirectory (storePut s.directory p { serial := x, body := .refused t 0 })))) ∧
      (dirWay s.directory x = none → hears = .next (refusedNotice taken))) ∧
    (dirLookup s.directory x = none → T.settings.mode = .opened → ∀ p, dirWay s.directory x = some p → enrols p .opened false) ∧
    (dirLookup s.directory x = none → T.settings.mode = .opened → dirWay s.directory x = none →
      ((∀ l, T.available l = false) → hears = .next (taken.raise .treeFull (some t) .none (.serial x))) ∧
      (∀ l, T.available l = true → (∀ i : Fin 4, T.engine.contexts[i] ≠ none) →
        hears = .next (taken.modTree t (fun T => { T with engine := { T.engine with deferred := bump T.engine.deferred } }))) ∧
      (∀ (l : Line) (i : Fin 4), T.available l = true → T.engine.contexts[i] = none →
        hears = .next (taken.raise .directoryFull (some t) .none (.serial x)))) ∧
    (∀ p b pin, dirLookup s.directory x = some (p, { serial := x, body := .expected b pin }) →
      ((b = none ∨ b = some t) → enrols p (.listed b) pin) ∧
      (∀ v, b = some v → v ≠ t → hears = .next (refusedNotice taken)))

/-- HELLO, where the reach check passes and the serial is PRESENT, no hold expiry of its home being told. On this tree, a LOST, ACTIVE or COOLDOWN
home begins a RETURN enrolment in the lowest free context and its slot is RANGING; without a context the hello is deferred; a home that is enrolling
begins again in its context, its unsent ASSIGN and DELAY withdrawn. On another tree, a LOST home whose serial is not pinned and that this tree would
enrol moves: its old slot is freed, its account closing as for any freed slot, and its entry and a new context stand for the lowest available slot
of this tree. With 63 entries queued the DELAY waits, with 64 the ASSIGN. That a prior-line byte of 128 or more is read as none, that a restarted
enrolment withdraws a drift DELAY and ends its wait, and that its line stays on the planner's lists, are the model's (log entries 10, 32 and 55). -/
def Obligations.HellosOfPresentSerials : Prop :=
  ∀ (s : State) (t : TreeId) (w : Window) (offset : Nat) (bytes : List Byte) (rtt : Nat) (p : Nat) (v : TreeId) (l : Line)
    (o : Origin) (pin : Bool) (age : Option Nat), s.inReset = false →
    (s.tree t).engine.window = some w → w.opened = true → offset + 128 ≤ 625 * w.reach + 3128 → bytes.length = 20 →
    goodBurstCheck bytes = true → natOf ((bytes.drop 6).take 2) ≤ 3000 → (s.tree t).search.running = false → rtt ≤ w.ert →
    (w.ert : Int) + offset - 625 * w.reach - natOf ((bytes.drop 6).take 2) = rtt →
    let x : Serial := BitVec.ofNat 48 (natOf (bytes.take 6))
    dirLookup s.directory x = some (p, { serial := x, body := .present v l o pin age }) →
    let prior := natOf ((bytes.drop 8).take 1)
    let T := s.tree t
    let hears := exec (.hello t offset bytes) s
    let taken := s.modTree t (fun T => { T with engine := { T.engine with taken := bump T.engine.taken } })
    let deferred := taken.modTree t (fun T => { T with engine := { T.engine with deferred := bump T.engine.deferred } })
    let context := fun (k : Line) (kind : ContextKind) (phase : Phase) (accepted : Bool) =>
      ({ serial := x, line := k, kind := kind, coarse := some rtt, provisional := 40 * (w.ert - rtt)
         prior := if h : prior < 128 then some ⟨prior, h⟩ else none, attempts := 0, phase := phase, accepted := accepted
         frame := none } : Context)
    let queued := fun (held : Nat) (k : Line) (outcome : Phase → Bool → List LineMsg → Prop) =>
      (held < 63 → outcome .delayWait true [.assign x k, .delay k (40 * (w.ert - rtt)) .provisional]) ∧
      (held = 63 → outcome .delayWait false [.assign x k]) ∧ (64 ≤ held → outcome .assignWait false [])
    let lowest := fun (i : Fin 4) => T.engine.contexts[i] = none ∧ ∀ j, j < i → T.engine.contexts[j] ≠ none
    let noOther := fun (k : Line) => ∀ (j : Fin 4) c, T.engine.contexts[j] = some c → c.line ≠ k
    let y := s.slot t l
    (v = t → (y.state = .lost ∧ y.expiry ≠ .told ∨ y.state = .active ∨ y.state = .cooldown) →
      ((∀ i : Fin 4, T.engine.contexts[i] ≠ none) → hears = .next deferred) ∧
      (∀ i, lowest i → noOther l → queued T.framer.count l fun phase accepted messages =>
        ∃ u, hears = .next u ∧ u.directory = (s.setAge t l none).directory ∧ u.links = s.links ∧ u.meter = s.meter ∧
          (∀ k, k ≠ t → u.tree k = s.tree k) ∧ (∀ k, k ≠ l → u.slot t k = s.slot t k) ∧
          u.slot t l = { y with state := .ranging, miss := 0, drift := {}, misplaced := 0, cooldown := 0, cause := none
                                expiry := .quiet, deficit := 0 } ∧
          (u.tree t).engine.contexts = T.engine.contexts.set i (some (context l .returning phase accepted)) ∧
          (u.tree t).engine.taken = bump T.engine.taken ∧ l ∉ (u.tree t).engine.dismissHeld ∧
          (u.tree t).framer = { T.framer with ordinary := T.framer.ordinary ++ messages })) ∧
    (v = t → (y.state = .assigned ∨ y.state = .ranging) → ∀ (i : Fin 4) c, T.engine.contexts[i] = some c → c.line = l →
      (∀ (j : Fin 4) d, j < i → T.engine.contexts[j] = some d → d.line ≠ l) →
      let kept := T.framer.keep (fun m => !m.enrols l)
      queued kept.count l fun phase accepted messages =>
      hears = .next (taken.modTree t (fun T => { T with
        slots := T.slots.set l { y with driftDelay := .none }
        engine := { T.engine with contexts := T.engine.contexts.set i (some (context l c.kind phase accepted)) }
        framer := { kept with ordinary := kept.ordinary ++ messages } }))) ∧
    (v ≠ t → (s.slot v l).state = .lost → (s.slot v l).expiry ≠ .told → (s.slot v l).link = some p → pin = false →
      (T.settings.mode = .opened ∨ o = .listed none ∨ o = .listed (some t)) →
      ((∀ k, T.available k = false) → hears = .next (taken.raise .treeFull (some t) .none (.serial x))) ∧
      (∀ k, T.available k = true → (∀ i : Fin 4, T.engine.contexts[i] ≠ none) → hears = .next deferred) ∧
      (∀ k i, T.available k = true → (∀ m, m < k → T.available m = false) → lowest i → noOther k →
        queued T.framer.count k fun phase accepted messages =>
        ∃ u, hears = .next u ∧ u.slot t k = { Slot.free with state := .assigned, link := some p } ∧
          u.slot v l = { Slot.free with account := (u.slot v l).account } ∧
          u.slot v l = (s.freeSlot v l .moved).slot v l ∧ u.meter = (s.freeSlot v l .moved).meter ∧
          storeGet u.directory p = some { serial := x, body := .present t k o pin none } ∧
          (∀ q, q ≠ p → storeGet u.directory q = storeGet s.directory q) ∧
          (u.tree t).engine.contexts = T.engine.contexts.set i (some (context k .new phase accepted)) ∧
          (u.tree t).framer = { T.framer with ordinary := T.framer.ordinary ++ messages } ∧
          (∀ a, (s.slot v l).account = .opened a → a.carries = {} → s.meter.queue.length < 1024 →
            u.meter.queue = s.meter.queue ++ [recordOf a v l .final true s.meter.clock])))

/-- ENROL_MESSAGE_RETRY offers what a context still waits for: in ASSIGN_WAIT its ASSIGN and, once that is accepted, its DELAY; in DELAY_WAIT and in
FINAL_WAIT a DELAY the queue has not accepted. With the queue full, or with nothing waiting, nothing changes.

DISMISS_RETRY, DRIFT_DELAY_RETRY and OVERRUN_MUTE_RETRY offer again what the queue has refused: with room the message is queued and no longer held;
with 64 entries held it waits on. An accepted drift DELAY becomes the slot's delay and ends the drift run.

RETURN_RANGING_RETRY (at a frame start, for a slot in service whose misplaced count stands at 4) and RELEASE_TRY (for a line of the pending-release
set): with a context free, the lowest of them, the slot enters RANGING with the counters of R23, its entry's age is absent, the context stands in
RANGE_WAIT with the slot's delay as its provisional delay, and a ranging grant is asked for. A release also needs its UNMUTE accepted, clears the
muted flag and leaves the set. With no context free, or the UNMUTE refused, nothing changes but that the try is noted (tries of one frame start
ascend). -/
def Obligations.RefusedOffersAndRangingsAreTriedAgain : Prop :=
  ((∀ (s : State) (t : TreeId) (l : Line) (i : Fin 4) (c : Context), s.inReset = false →
      (s.tree t).engine.contexts[i] = some c → c.line = l →
      (∀ (j : Fin 4) d, j < i → (s.tree t).engine.contexts[j] = some d → d.line ≠ l) →
      let n := (s.tree t).framer.count
      let sends := fun (c : Context) (ms : List LineMsg) => exec (.enrolMessageRetry t l) s = .next (s.modTree t (fun T =>
        { T with engine := { T.engine with contexts := T.engine.contexts.set i (some c) }
                 framer := { T.framer with ordinary := T.framer.ordinary ++ ms } }))
      (c.phase = .assignWait → n < 63 →
        sends { c with phase := .delayWait, accepted := true } [.assign c.serial l, .delay l c.provisional .provisional]) ∧
      (c.phase = .assignWait → n = 63 → sends { c with phase := .delayWait, accepted := false } [.assign c.serial l]) ∧
      (c.phase = .delayWait → c.accepted = false → n < 64 →
        sends { c with accepted := true } [.delay l c.provisional .provisional]) ∧
      (c.phase = .finalWait → c.accepted = false → n < 64 →
        sends { c with accepted := true } [.delay l (s.slot t l).eqd .final]) ∧
      ((64 ≤ n ∨ c.phase = .rangeWait ∨ c.phase = .verifyWait ∨ (c.phase ≠ .assignWait ∧ c.accepted = true)) →
        exec (.enrolMessageRetry t l) s = .next s)) ∧
   (∀ (s : State) (t : TreeId) (l : Line), s.inReset = false →
      (l ∈ (s.tree t).engine.dismissHeld → (s.slot t l).expiry ≠ .waits →
        ((s.tree t).framer.count < 64 → exec (.dismissRetry t l) s = .next (s.modTree t (fun T =>
          { T with framer := { T.framer with urgent := T.framer.urgent ++ [.dismiss l] }
                   engine := { T.engine with dismissHeld := T.engine.dismissHeld.filter (fun k => k ≠ l) } }))) ∧
        (64 ≤ (s.tree t).framer.count → exec (.dismissRetry t l) s = .next s)) ∧
      (∀ value more, (s.tree t).engine.driftHeld = (l, value) :: more → (∀ p ∈ more, p.1 ≠ l) →
        ((s.tree t).framer.count < 64 → exec (.driftDelayRetry t l) s = .next (s.modTree t (fun T =>
          { T with framer := { T.framer with ordinary := T.framer.ordinary ++ [.delay l value .drift] }
                   slots := T.slots.set l { s.slot t l with eqd := value, drift := {}, driftDelay := .unsent }
                   engine := { T.engine with driftHeld := more } }))) ∧
        (64 ≤ (s.tree t).framer.count → exec (.driftDelayRetry t l) s = .next (s.modTree t (fun T =>
          { T with engine := { T.engine with driftHeld := more ++ [(l, value)] } })))) ∧
      (l ∈ (s.tree t).receiver.muteWaits → (s.slot t l).state = .quarantined → (s.slot t l).cause = some .overrun →
        ((s.tree t).framer.count < 64 → exec (.overrunMuteRetry t l) s = .next (s.modTree t (fun T =>
          { T with framer := { T.framer with urgent := T.framer.urgent ++ [.mute l none] }
                   receiver := { T.receiver with muteWaits := T.receiver.muteWaits.filter (fun k => k ≠ l) } }))) ∧
        (64 ≤ (s.tree t).framer.count → exec (.overrunMuteRetry t l) s = .next s)))) ∧
  (∀ (s : State) (t : TreeId) (l : Line), s.inReset = false → (∀ k, (s.tree t).lastTry = some k → k < l) →
     let T := s.tree t
     let x := s.slot t l
     let noted := s.modTree t (fun T => { T with lastTry := some l })
     let begun := fun (u : State) (i : Fin 4) (urgent : List LineMsg) (muted : Bool) (pending : List Line) =>
       u.directory = (s.setAge t l none).directory ∧ u.links = s.links ∧ u.meter = s.meter ∧ u.journal = s.journal ∧
       (∀ v, v ≠ t → u.tree v = s.tree v) ∧ (∀ k, k ≠ l → u.slot t k = s.slot t k) ∧
       u.slot t l = { x with state := .ranging, miss := 0, drift := {}, misplaced := 0, cooldown := 0, cause := none
                             expiry := .quiet, deficit := 0, muted := muted } ∧
       (u.tree t).framer = { T.framer with urgent := T.framer.urgent ++ urgent } ∧
       (u.tree t).search = { T.search with pending := pending } ∧
       (u.tree t).planner.rangingList = (if l ∈ T.planner.rangingList then T.planner.rangingList else T.planner.rangingList ++ [l]) ∧
       ∃ c : Context, (u.tree t).engine.contexts = T.engine.contexts.set i (some c) ∧
         c.line = l ∧ c.kind = .returning ∧ c.coarse = none ∧ c.provisional = x.eqd ∧ c.prior = none ∧ c.attempts = 0 ∧
         c.phase = .rangeWait ∧ c.frame = none ∧ (∀ y, s.serialOf t l = some y → c.serial = y)
     let lowest := fun (i : Fin 4) => T.engine.contexts[i] = none ∧ (∀ j, j < i → T.engine.contexts[j] ≠ none) ∧
       ∀ (j : Fin 4) d, T.engine.contexts[j] = some d → d.line ≠ l
     ((x.state = .active ∨ x.state = .cooldown) → x.misplaced = 4 →
       (∀ i, lowest i → ∃ u, exec (.returnRangingRetry t l) s = .next u ∧ begun u i [] x.muted T.search.pending) ∧
       ((∀ i : Fin 4, T.engine.contexts[i] ≠ none) → exec (.returnRangingRetry t l) s = .next noted)) ∧
     (l ∈ T.search.pending →
       (∀ i, lowest i → T.framer.count < 64 →
         ∃ u, exec (.releaseTry t l) s = .next u ∧
           begun u i [.unmute l none] false (T.search.pending.filter (fun k => k ≠ l))) ∧
       (((∀ i : Fin 4, T.engine.contexts[i] ≠ none) ∨ 64 ≤ T.framer.count) → exec (.releaseTry t l) s = .next noted)))

/-- RANGING_OUTCOME for a context in RANGE_WAIT that awaits a grant of the receive frame under way: a burst with a good check and the context's line
and serial gives the final delay, provisional delay less offset error, which is recorded and offered; no burst, a failed check or another line or
serial is a failed attempt, and below 3 a new ranging grant is asked for. The third failure, and a final delay outside 0..40 × ERT, end the
enrolment: a NEW home's slot is freed and a DISMISS offered, a RETURN home becomes LOST, with ENROL_FAILED or OUT_OF_REACH raised. An attempt of a
RETURN home whose slot is muted is not counted, and a new ranging grant is asked for (R123; log entry 62). -/
def Obligations.RangingOutcomesGiveTheFinalDelay : Prop :=
  ∀ (s : State) (t : TreeId) (l : Line) (a : ArrivalList) (rest : List ArrivalList) (i : Fin 4) (c : Context) (g : Grant)
    (before after : List ListedGrant), s.inReset = false → (s.tree t).receiver.lists = a :: rest →
    a.grants = before ++ [{ grant := g, mark := .pending, charged := false }] ++ after → g.line = l → g.kind = .ranging →
    (∀ x ∈ before ++ after, ¬ (x.grant.line = l ∧ x.grant.kind = .ranging)) →
    (s.tree t).engine.contexts[i] = some c → c.line = l →
    (∀ (j : Fin 4) d, j < i → (s.tree t).engine.contexts[j] = some d → d.line ≠ l) → c.phase = .rangeWait → c.frame = some a.plan.frame →
    let marked := fun (m : GrantMark) (T : TreeState) =>
      ({ T with receiver := { T.receiver with
          lists := { a with grants := before ++ [{ grant := g, mark := m, charged := false }] ++ after } :: rest } } : TreeState)
    let uncounted := (s.slot t l).muted = true ∧ c.kind = .returning
    let again := fun (m : GrantMark) (o : Option RangingBurst) (attempts : Nat) =>
      exec (.rangingOutcome t l o) s = .next (s.modTree t (fun T =>
        { marked m T with
          engine := { T.engine with
            contexts := T.engine.contexts.set i
              (some { c with attempts := attempts, phase := .rangeWait, accepted := true, frame := none }) }
          planner := { T.planner with rangingList :=
            if l ∈ T.planner.rangingList then T.planner.rangingList else T.planner.rangingList ++ [l] } }))
    let fails := fun (m : GrantMark) (o : Option RangingBurst) =>
      (uncounted → again m o c.attempts) ∧ (¬ uncounted → c.attempts < 2 → again m o (c.attempts + 1))
    let ends := fun (m : GrantMark) (o : Option RangingBurst) (notice : NoticeKind) (first : Bool) =>
      let at_ := s.modTree t (marked m)
      let tell := fun (u : State) => u.raise notice (some t) (.line l) (.serial c.serial)
      let released := fun (u : State) =>
        u.modTree t (fun T => { T with engine := { T.engine with contexts := T.engine.contexts.set i none } })
      (c.kind = .new →
        exec (.rangingOutcome t l o) s = .next
          ((if first then (tell at_).freeSlot t l .left else tell (at_.freeSlot t l .left)).offerDismiss t l)) ∧
      (c.kind = .returning →
        exec (.rangingOutcome t l o) s = .next
          ((if first then released (tell at_) else tell (released at_)).enterLost t l))
    fails .missed none ∧ (¬ uncounted → 2 ≤ c.attempts → ends .missed none .enrolFailed false) ∧
    (∀ b : RangingBurst, b.e.natAbs ≤ 5120 →
      let m : GrantMark := .found ((g.start : Int) + b.e / 40) false
      let right := goodBurstCheck b.bytes = true ∧ natOf (b.bytes.take 1) = l.val ∧
        BitVec.ofNat 48 (natOf ((b.bytes.drop 1).take 6)) = c.serial
      (¬ right → fails m (some b)) ∧ (¬ right → ¬ uncounted → 2 ≤ c.attempts → ends m (some b) .enrolFailed false) ∧
      (right → ((c.provisional : Int) - b.e < 0 ∨ (40 * (s.tree t).settings.ert : Int) < (c.provisional : Int) - b.e) →
        ends m (some b) .outOfReach true) ∧
      (right → ∀ f : Nat, f ≤ 40 * (s.tree t).settings.ert → (c.provisional : Int) - b.e = f →
        let final := fun (accepted : Bool) (messages : List LineMsg) =>
          exec (.rangingOutcome t l (some b)) s = .next (s.modTree t (fun T =>
            { marked m T with
              slots := T.slots.set l { s.slot t l with eqd := f }
              engine := { T.engine with
                contexts := T.engine.contexts.set i (some { c with phase := .finalWait, accepted := accepted, frame := none }) }
              framer := { T.framer with ordinary := T.framer.ordinary ++ messages } }))
        ((s.tree t).framer.count < 64 → final true [.delay l f .final]) ∧ (64 ≤ (s.tree t).framer.count → final false [])))

/-- GRANT_OUTCOME for the verify grant a context awaits: an arrival within 80 bit times with a good check brings the home into service. The slot is
ACTIVE with its counters 0, a NEW home gets the tree's default service record and an open account, a RETURN home keeps both, the record takes the
burst's backlog, the context is released, and HOME_ACTIVE is raised. No burst, a failed check or a larger error is a failed attempt: below 3 a new
ranging grant is asked for, from the slot's delay, and the third ends the enrolment, a NEW home's slot being freed and a DISMISS offered, a RETURN
home becoming LOST, with ENROL_FAILED raised. A good burst with a larger error still hands over its backlog. A burst more than 320 bit times from
its place counts as missed (log entry 44), and a failed attempt of a RETURN home whose slot is muted is not counted (R123; log entry 62). -/
def Obligations.AVerifyBringsTheHomeIntoService : Prop :=
  (∀ (s : State) (t : TreeId) (l : Line) (a : ArrivalList) (rest : List ArrivalList) (i : Fin 4) (c : Context) (g : ListedGrant)
    (found : Option Burst) (report : Option Nat), s.inReset = false → (s.tree t).receiver.lists = a :: rest →
    a.grants.find? (ListedGrant.awaits l) = some g → (s.slot t l).state = .ranging →
    (s.tree t).engine.contexts[i] = some c → c.line = l →
    (∀ (j : Fin 4) d, j < i → (s.tree t).engine.contexts[j] = some d → d.line ≠ l) → c.phase = .verifyWait →
    c.frame = some a.plan.frame →
    (report = none ∧ (∀ b, found = some b → 320 < b.e.natAbs ∨ b.e.natAbs ≤ 320 ∧
        (unpackBurst l (5 * (g.grant.length - a.plan.overhead)) b.bytes).good = false) ∨
      ∃ b backlog, found = some b ∧ report = some backlog ∧ 80 < b.e.natAbs ∧ b.e.natAbs ≤ 320 ∧
        unpackBurst l (5 * (g.grant.length - a.plan.overhead)) b.bytes = { good := true, backlog := backlog, packets := [] }) →
    let backlogged := fun (r : Option ServiceRecord) => match report with
      | some n => r.map (fun r => { r with b := n })
      | none => r
    let uncounted := (s.slot t l).muted = true ∧ c.kind = .returning
    -- what a state `u` is of a state `v` but for the receiver of the tree, the slot's service record being as `f` gives it
    let upTo := fun (v u : State) (f : Option ServiceRecord → Option ServiceRecord) =>
      u = { v with trees := u.trees } ∧ (∀ k, k ≠ t → u.tree k = v.tree k) ∧ (∀ k, k ≠ l → u.slot t k = v.slot t k) ∧
      u.tree t = { v.tree t with receiver := (u.tree t).receiver, slots := (u.tree t).slots } ∧
      u.slot t l = { v.slot t l with service := f (v.slot t l).service }
    let answers := fun (after : State → State) =>
      ∃ v u, upTo s v id ∧ exec (.grantOutcome t l found) s = .next u ∧ upTo (after v) u backlogged
    let again := fun (attempts : Nat) => answers (fun v => v.modTree t (fun T => { T with
      engine := { T.engine with
        contexts := T.engine.contexts.set i (some { c with
          attempts := attempts, provisional := (s.slot t l).eqd, phase := .rangeWait, accepted := true, frame := none }) }
      planner := { T.planner with rangingList :=
        if l ∈ T.planner.rangingList then T.planner.rangingList else T.planner.rangingList ++ [l] } }))
    (uncounted → again c.attempts) ∧ (¬ uncounted → c.attempts < 2 → again (c.attempts + 1)) ∧
    (¬ uncounted → 2 ≤ c.attempts →
      let tell := fun (v : State) => v.raise .enrolFailed (some t) (.line l) (.serial c.serial)
      (c.kind = .new → answers (fun v => (tell (v.freeSlot t l .left)).offerDismiss t l)) ∧
      (c.kind = .returning → answers (fun v => (tell (v.modTree t (fun T =>
        { T with engine := { T.engine with contexts := T.engine.contexts.set i none } }))).enterLost t l)))) ∧
  ∀ (s : State) (t : TreeId) (l : Line) (a : ArrivalList) (rest : List ArrivalList) (i : Fin 4) (c : Context) (g : ListedGrant)
    (b : Burst) (backlog : Nat), s.inReset = false → (s.tree t).receiver.lists = a :: rest →
    a.grants.find? (ListedGrant.awaits l) = some g → b.e.natAbs ≤ 80 →
    unpackBurst l (5 * (g.grant.length - a.plan.overhead)) b.bytes = { good := true, backlog := backlog, packets := [] } →
    (s.slot t l).state = .ranging → (s.tree t).engine.contexts[i] = some c → c.line = l →
    (∀ (j : Fin 4) d, j < i → (s.tree t).engine.contexts[j] = some d → d.line ≠ l) → c.phase = .verifyWait →
    c.frame = some a.plan.frame →
    ∃ u : State, exec (.grantOutcome t l (some b)) s = .next u ∧
      (u.tree t).engine = { (s.tree t).engine with contexts := (s.tree t).engine.contexts.set i none } ∧
      (u.tree t).receiver.arrived = bump (s.tree t).receiver.arrived ∧
      u.links = (s.raise .homeActive (some t) (.line l) (.homeActive c.serial c.kind (s.slot t l).eqd c.prior)).links ∧
      (∀ k, k ≠ l → u.slot t k = s.slot t k) ∧ (∀ v, v ≠ t → u.tree v = s.tree v) ∧ u.directory = s.directory ∧ u.meter = s.meter ∧
      (c.kind = .returning →
        u.slot t l = { s.slot t l with state := .active, miss := 0, drift := {}, misplaced := 0, sinceGrant := 0
                                       service := (s.slot t l).service.map (fun r => { r with b := backlog }) }) ∧
      (c.kind = .new →
        ∃ r : ServiceRecord, r.live = (s.tree t).settings.service ∧ r.k = 0 ∧ r.b = backlog ∧ r.staged = {} ∧
          u.slot t l = { s.slot t l with
            state := .active, miss := 0, drift := {}, misplaced := 0, sinceGrant := 0, service := some r
            account := .opened
              { serial := c.serial, start := stampOf s.meter.clock, band := s.band, clockUnset := s.meter.clock.isNone
                merged := false, throttled := false, counts := {}, carries := {}, period := 0
                quota := (s.tree t).settings.quota, warn := (s.tree t).settings.warn, quotaState := .normal } })

/-! ## The upstream planner and the frame start -/

/-- SET_SERVICE, READ_SERVICE and SET_DEFAULT_SERVICE. The fields a link may write are clamped to their ranges, PR and BA against the CR they will
meet, laid over the pending record, and PR and BA raised to CR. SET_SERVICE writes every field that then differs from its live value into the staged
part and no other; SET_DEFAULT_SERVICE writes the default of each tree named at once. The reply gives the count of fields taken, CLAMPED with the
first field that was clamped or raised. A request with no field the link may write is DONE with count 0. How the field positions are counted is the
model's (log entry 24). -/
def Obligations.ServiceRequestsClampAndStage : Prop :=
  ∀ (s : State) (h : Head),
    let allowed := fun (f : ServiceChange) => if h.link = .craft then ({ w := f.w, dw := f.dw } : ServiceChange) else f
    let fields := fun (f : ServiceChange) => ([f.cr, f.pr, f.ba, f.tr, f.w, f.dw].filter Option.isSome).length
    let named := fun (v : Option Nat) (old : Nat) => v.getD old
    let crOf := fun (f : ServiceChange) (p : ServiceFields) => match f.cr with | some v => min v 62500 | none => p.cr
    let laid := fun (f : ServiceChange) (p : ServiceFields) =>
      let cr := crOf f p
      ({ cr := cr
         pr := max cr (match f.pr with | some v => min v 62500 | none => p.pr)
         ba := max cr (match f.ba with | some v => min v 250000 | none => p.ba)
         tr := match f.tr with | some v => min v 62500 | none => p.tr
         w := match f.w with | some v => max 1 (min v 255) | none => p.w
         dw := match f.dw with | some v => max 1 (min v 255) | none => p.dw } : ServiceFields)
    let above := fun (top : Nat) (v : Option Nat) => ∃ n, v = some n ∧ top < n
    let weightOff := fun (v : Option Nat) => ∃ n, v = some n ∧ (n < 1 ∨ 255 < n)
    let off := fun (f : ServiceChange) (p : ServiceFields) => fun (i : Fin 6) => match i with
      | 0 => above 62500 f.cr
      | 1 => above 62500 f.pr ∨ named f.pr p.pr < crOf f p
      | 2 => above 250000 f.ba ∨ named f.ba p.ba < crOf f p
      | 3 => above 62500 f.tr
      | 4 => weightOff f.w
      | 5 => weightOff f.dw
    let outcome := fun (base : Nat) (a : Answer) (f : ServiceChange) (p : ServiceFields) =>
      ((∀ i, ¬ off f p i) → a = { code := .done, values := .count (fields f) }) ∧
      (∀ i, off f p i → (∀ j, j < i → ¬ off f p j) →
        a = { code := .clamped, field := some (base + i.val), values := .count (fields f) })
    let staged := fun (v live : Nat) => if v = live then none else some v
    (s.ready h .setService = true → ∀ (line : Nat) (f : ServiceChange),
      let a := s.taken h ReqKind.setService.byte
      let reply := fun (u : State) (ans : Answer) => exec (.setService h line f) s = .next (u.answer h .setService ans)
      ((4 ≤ h.tree ∨ 128 ≤ line) → reply a { code := .badValue }) ∧
      ∀ (t : TreeId) (l : Line), h.tree = t.val → line = l.val →
        ((s.slot t l).service = none → reply a { code := .conflict }) ∧
        ∀ r, (s.slot t l).service = some r →
          (fields (allowed f) = 0 → reply a { code := .done, values := .count 0 }) ∧
          (fields (allowed f) ≠ 0 →
            let p : ServiceFields :=
              { cr := named r.staged.cr r.live.cr, pr := named r.staged.pr r.live.pr, ba := named r.staged.ba r.live.ba
                tr := named r.staged.tr r.live.tr, w := named r.staged.w r.live.w, dw := named r.staged.dw r.live.dw }
            let v := laid (allowed f) p
            ∃ ans, outcome 2 ans (allowed f) p ∧
              let st : ServiceChange :=
                { cr := staged v.cr r.live.cr, pr := staged v.pr r.live.pr, ba := staged v.ba r.live.ba
                  tr := staged v.tr r.live.tr, w := staged v.w r.live.w, dw := staged v.dw r.live.dw }
              reply (a.modSlot t l (fun x => { x with service := some { r with staged := st } })) ans)) ∧
    (s.ready h .readService = true → ∀ line : Nat,
      let reply := fun (ans : Answer) =>
        exec (.readService h line) s = .next ((s.taken h ReqKind.readService.byte).answer h .readService ans)
      ((4 ≤ h.tree ∨ 128 ≤ line) → reply { code := .badValue }) ∧
      ∀ (t : TreeId) (l : Line), h.tree = t.val → line = l.val →
        ((s.slot t l).service = none → reply { code := .conflict }) ∧
        ∀ r, (s.slot t l).service = some r →
          let view : ServiceView :=
            { live := r.live, k := r.k, b := r.b, crEff := r.crEff, prEff := r.prEff, throttled := r.throttled, staged := r.staged
              waiting := decide (0 < fields r.staged) && ((s.tree t).planner.hold.isSome ||
                (decide ((s.slot t l).state ≠ .active) && decide ((s.slot t l).state ≠ .cooldown))) }
          reply { code := .done, values := .service view }) ∧
    (s.ready h .setDefaultService = true → ∀ f : ServiceChange,
      let a := s.taken h ReqKind.setDefaultService.byte
      let reply := fun (u : State) (ans : Answer) => exec (.setDefaultService h f) s = .next (u.answer h .setDefaultService ans)
      (4 ≤ h.tree → h.tree ≠ 15 → reply a { code := .badValue }) ∧
      ((h.tree < 4 ∨ h.tree = 15) → fields (allowed f) = 0 → reply a { code := .done, values := .count 0 }) ∧
      (∀ t : TreeId, h.tree = t.val → fields (allowed f) ≠ 0 →
        let p := (s.tree t).settings.service
        ∃ ans, outcome 1 ans (allowed f) p ∧
          reply (a.modTree t (fun T => { T with settings := { T.settings with service := laid (allowed f) p } })) ans) ∧
      (h.tree = 15 → fields (allowed f) ≠ 0 →
        ∃ u ans, reply u ans ∧ u = { a with trees := u.trees } ∧ (ans.code = .done ∨ ans.code = .clamped) ∧
          ans.values = .count (fields (allowed f)) ∧
          (ans.code = .done ↔ ∀ t i, ¬ off (allowed f) (s.tree t).settings.service i) ∧
          ∀ t, u.tree t = { s.tree t with
            settings := { (s.tree t).settings with service := laid (allowed f) (s.tree t).settings.service } }))

/-- HOLD_TREE, RELEASE_HOLD and HOLD_LAPSED. A hold of a tree named, one or all four, is set to 4,000 frames, or ended; RELEASE_HOLD is refused
CONFLICT when no tree named is holding. When a hold lapses, the staged values of the slots in ACTIVE or COOLDOWN go live with K brought down to the
new BA, and HOLD_LAPSED is raised; that the lapse has a command of its own, due while one frame is left, is the model's (log entry 11). -/
def Obligations.HoldsAreSetReleasedAndLapse : Prop :=
  ∀ (s : State) (h : Head),
    let named := fun (t : TreeId) => h.tree = 15 ∨ h.tree = t.val
    let sets := fun (u : State) (b : Byte) (hold : Option Nat) =>
      u = { s.taken h b with trees := u.trees } ∧
      ∀ t, (named t → u.tree t = { s.tree t with planner := { (s.tree t).planner with hold := hold } }) ∧
        (¬ named t → u.tree t = s.tree t)
    (s.ready h .holdTree = true →
      (4 ≤ h.tree → h.tree ≠ 15 →
        exec (.holdTree h) s = .next ((s.taken h ReqKind.holdTree.byte).answer h .holdTree { code := .badValue })) ∧
      ((h.tree < 4 ∨ h.tree = 15) →
        ∃ u, exec (.holdTree h) s = .next (u.answer h .holdTree { code := .done }) ∧ sets u ReqKind.holdTree.byte (some 4000))) ∧
    (s.ready h .releaseHold = true →
      (4 ≤ h.tree → h.tree ≠ 15 →
        exec (.releaseHold h) s = .next ((s.taken h ReqKind.releaseHold.byte).answer h .releaseHold { code := .badValue })) ∧
      ((h.tree < 4 ∨ h.tree = 15) → (∀ t, named t → (s.tree t).planner.hold = none) →
        exec (.releaseHold h) s = .next ((s.taken h ReqKind.releaseHold.byte).answer h .releaseHold { code := .conflict })) ∧
      (∀ t, named t → (s.tree t).planner.hold ≠ none →
        ∃ u, exec (.releaseHold h) s = .next (u.answer h .releaseHold { code := .done }) ∧ sets u ReqKind.releaseHold.byte none)) ∧
    (∀ (t : TreeId) (c : Nat), s.inReset = false → (s.tree t).planner.hold = some c → c ≤ 1 →
      ∃ u, exec (.holdLapsed t) s = .next u ∧ u.links = (s.raise .holdLapsed (some t) .none .none).links ∧
        u = { s with links := u.links, trees := u.trees } ∧ (∀ v, v ≠ t → u.tree v = s.tree v) ∧
        u.tree t = { s.tree t with planner := { (s.tree t).planner with hold := none }, slots := (u.tree t).slots } ∧
        ∀ l, (((s.slot t l).state = .active ∨ (s.slot t l).state = .cooldown) → ∀ r, (s.slot t l).service = some r →
            let ba := r.staged.ba.getD r.live.ba
            u.slot t l = { s.slot t l with service := some { r with
              live := { cr := r.staged.cr.getD r.live.cr, pr := r.staged.pr.getD r.live.pr, ba := ba
                        tr := r.staged.tr.getD r.live.tr, w := r.staged.w.getD r.live.w, dw := r.staged.dw.getD r.live.dw }
              staged := {}, k := if r.staged = {} then r.k else min r.k ba } }) ∧
          ((s.slot t l).state ≠ .active → (s.slot t l).state ≠ .cooldown → u.slot t l = s.slot t l))

/-- FRAME_START of a tree that has not started the present frame sends a frame with its number: the plan as its grant map and as a new
expected-arrival list, up to 16 messages with the urgent ones first, then the CALL of this frame, then the other ordinary messages that are no CALL,
and a data area within the capacity of R5 whose broadcast packets come first and take at most 30,000 bytes. No grant goes to a slot that is muted,
FREE, ASSIGNED, LOST or QUARANTINED; a RANGING slot takes ranging and status grants alone and a COOLDOWN slot status grants alone; a DATA grant
carries at most the peak rate of the plan. Once all four trees have started a frame, the first tree to start again brings the frame boundary: the
frame number wraps to 0 after 4,294,967,295 (R1), and what refers to a frame counts on (log entry 4). The hold counts and lapses, the staged parts
go live, and the plan is that of the passes on the tree so made; the cooldowns, the schedule counter and the outage frames count; the queue keeps
what was not selected, in order; the data area is the fill of the tree's queues, and each packet of a home is billed to it.

A frame start that is not due, since a receive frame has to end first or another tree has still to start the present frame, is discarded (log entry
43). That cooldowns count after the plan is built, and that the frame start takes a lapse and a cooldown's end that had not come, are the model's
(log entries 11, 12 and 39), and so is that a cooldown begun anew since its COOLDOWN_END is counted (log entry 72). -/
def Obligations.FrameStartSendsTheFrame : Prop :=
  (∀ (s : State) (t : TreeId), s.inReset = false →
    (3 ≤ (s.tree t).receiver.lists.length ∨ (s.tree t).started = true ∧ ∃ v, (s.tree v).started = false) →
    exec (.frameStart t) s = .next s) ∧
  ∀ (s : State) (t : TreeId), s.inReset = false → (s.tree t).receiver.lists.length < 3 →
    ((s.tree t).started = false ∨ ∀ v, (s.tree v).started = true) →
    let n := if (s.tree t).started then s.time.count + 1 else s.time.count
    let q := (s.tree t).framer
    let T := s.tree t
    let holding := match T.planner.hold with
      | some c => if c ≤ 1 then none else some (c - 1)
      | none => none
    let applied := fun (r : ServiceRecord) =>
      let ba := r.staged.ba.getD r.live.ba
      ({ r with
        live := { cr := r.staged.cr.getD r.live.cr, pr := r.staged.pr.getD r.live.pr, ba := ba, tr := r.staged.tr.getD r.live.tr
                  w := r.staged.w.getD r.live.w, dw := r.staged.dw.getD r.live.dw }
        staged := {}, k := if r.staged = {} then r.k else min r.k ba } : ServiceRecord)
    let top := 281474976710655
    ∃ (u : State) (f : DownFrame) (a : ArrivalList) (R D : TreeState), exec (.frameStart t) s = .next u ∧
      (u.tree t).framer.sent = some f ∧ f.frame = n % 4294967296 ∧ f.overhead = (s.tree t).settings.overhead ∧ (u.tree t).started = true ∧
      (u.tree t).receiver.lists = (s.tree t).receiver.lists ++ [a] ∧ a.plan.frame = n ∧ a.plan.grants = f.grants ∧
      a.grants = f.grants.map (fun g => { grant := g, mark := .pending, charged := false }) ∧
      f.messages = (q.urgent ++ q.ordinary.filter (fun m => m.callFor n) ++ q.ordinary.filter (fun m => !m.isCall)).take 16 ∧
      (f.packets.map (fun p => p.2.length + 4)).sum ≤ 300000 - 16 - 6 * f.grants.length - 16 * f.messages.length ∧
      (∃ broadcast homes, f.packets = broadcast ++ homes ∧ (∀ p ∈ broadcast, p.1 = none) ∧ (∀ p ∈ homes, p.1 ≠ none) ∧
        (broadcast.map (fun p => p.2.length)).sum ≤ 30000) ∧
      (∀ g ∈ f.grants, (s.slot t g.line).muted = false ∧
        (g.kind = .ranging → (s.slot t g.line).state = .ranging) ∧
        (g.kind = .status → (s.slot t g.line).state = .ranging ∨ (s.slot t g.line).state = .active ∨
          (s.slot t g.line).state = .cooldown) ∧
        (g.kind = .data → (s.slot t g.line).state = .active ∧
          ∃ r, (u.slot t g.line).service = some r ∧ g.length ≤ (r.prEff + 4) / 5 + f.overhead)) ∧
      (if (s.tree t).started then
        u.time.frame = (s.time.frame + 1) % 4294967296 ∧ u.time.count = s.time.count + 1 ∧
        (s.time.boundaries + 1 = 4000 →
          u.time.boundaries = 0 ∧ u.time.secondsDue = s.time.secondsDue ++ [(s.time.frame + 1) % 4294967296]) ∧
        (s.time.boundaries + 1 ≠ 4000 → u.time.boundaries = s.time.boundaries + 1 ∧ u.time.secondsDue = s.time.secondsDue)
      else u.time = s.time) ∧
      -- the hold, the staged parts and the plan
      R = { T with started := true, lastTry := none, planner := { T.planner with hold := holding }, slots := R.slots } ∧
      (∀ l, R.slot l =
        if holding = none ∧ ((s.slot t l).state = .active ∨ (s.slot t l).state = .cooldown) then
          { s.slot t l with service := (s.slot t l).service.map applied }
        else s.slot t l) ∧
      a.plan = (R.buildPlan n).2 ∧
      (let P := (R.buildPlan n).1
       (u.tree t).planner.hold = holding ∧ (u.tree t).planner.rotation = P.planner.rotation ∧
       (u.tree t).planner.remainder = P.planner.remainder ∧ (u.tree t).planner.summary = P.planner.summary ∧
       ∀ l, (u.slot t l).service = (P.slot l).service ∧ (u.slot t l).sinceGrant = (P.slot l).sinceGrant) ∧
      ((∀ l o, (s.slot t l).account = .opened o → o.quota = 0) →
        u.links = if T.planner.hold ≠ none ∧ holding = none then (s.raise .holdLapsed (some t) .none .none).links else s.links) ∧
      -- what the blocks count
      (∀ l, let x := s.slot t l
        (x.state = .cooldown →
          (u.slot t l).state = (if x.cooldown ≤ 1 then .active else .cooldown) ∧ (u.slot t l).cooldown = x.cooldown - 1) ∧
        (x.state ≠ .cooldown → x.state ≠ .assigned → (u.slot t l).state = x.state ∧ (u.slot t l).cooldown = x.cooldown) ∧
        ∀ o, x.account = .opened o → x.queue = [] → o.carries = {} → o.counts.outage < 4294967295 →
          (u.slot t l).account = .opened { o with counts := { o.counts with
            outage := if x.state = .quarantined ∨ x.muted = true then o.counts.outage + 1 else o.counts.outage } }) ∧
      (let missed := (∃ m ∈ q.ordinary, m.callFor n = true) ∧ ∀ m ∈ f.messages, m.callFor n = false
       (u.tree t).engine.counter =
         (if missed then 0 else if T.settings.di ≤ T.engine.counter then T.engine.counter else T.engine.counter + 1) ∧
       -- the line messages that stay
       ((∀ m ∈ q.urgent, m.isCall = false) →
         (u.tree t).framer.urgent = q.urgent.drop 16 ∧ (u.tree t).framer.ordinary.Sublist q.ordinary ∧
         (u.tree t).framer.ordinary.filter (fun m => !m.isCall) = (q.ordinary.filter (fun m => !m.isCall)).drop
           (16 - q.urgent.length - (q.ordinary.filter (fun m => m.callFor n)).length) ∧
         (u.tree t).framer.ordinary.filter (fun m => m.isCall) =
           if missed then [] else q.ordinary.filter (fun m => m.isCall && !m.callFor n))) ∧
      -- the data area and its billing
      D.traffic = { T.traffic with openTurn := D.traffic.openTurn } ∧
      ((s.slot t T.traffic.rotation).state ≠ .assigned → D.traffic.openTurn = T.traffic.openTurn) ∧
      (∀ l, let x := s.slot t l
        (D.slot l).queue = x.queue ∧ (D.slot l).state = (u.slot t l).state ∧ (D.slot l).service = (u.slot t l).service ∧
        (D.slot l).allowance = x.allowance ∧ (D.slot l).isThrottled = x.isThrottled ∧
        (x.state ≠ .assigned → (D.slot l).deficit = x.deficit)) ∧
      (let filled := D.fill (300000 - 16 - 6 * f.grants.length - 16 * f.messages.length)
       f.packets = filled.2 ∧ (u.tree t).traffic = filled.1.traffic ∧
       ∀ l, (u.slot t l).queue = (filled.1.slot l).queue ∧ (u.slot t l).deficit = (filled.1.slot l).deficit ∧
         (u.slot t l).allowance = (filled.1.slot l).allowance) ∧
      ∀ l o, (s.slot t l).account = .opened o → (s.slot t l).state ≠ .quarantined → (s.slot t l).muted = false → o.carries = {} →
        o.quota = 0 → o.period ≤ top →
        let sent := ((f.packets.filter (fun p => decide (p.1 = some l))).map (fun p => p.2.length)).sum
        o.counts.down + sent ≤ top →
        (u.slot t l).account = .opened { o with
          counts := { o.counts with down := o.counts.down + sent }, period := min (o.period + sent) top }

/-- What the line messages of a frame do to the blocks that offered them. A CALL makes the window OPEN (R42). A provisional DELAY of a context in
DELAY_WAIT becomes the slot's delay, takes an ASSIGNED slot to RANGING, and the context waits in RANGE_WAIT for the ranging grant it asks for (R52); a
final DELAY takes a context from FINAL_WAIT to VERIFY_WAIT and asks for its verify grant (R54). A drift DELAY that was unsent has been sent in frame n
(R58). A DELAY whose context has been released since changes nothing, so that a later context waits for its own (R52). A MUTE or UNMUTE of the current
step takes its line off the awaited set with m = n, and the last one moves the test to OBSERVING with the span
length now set (R115, R116). The other messages change nothing.

FRAME_START sends its messages to their blocks one after another, in the order in which the frame carries them, after the plan, the cooldowns and the
schedule have been counted (an order that is the model's, log entry 39) and after a CALL that its target frame could not carry has been withdrawn, its
window then absent and skipped (R8, R43). -/
def Obligations.SentMessagesActOnTheirBlocks : Prop :=
  (∀ (s : State) (t : TreeId) (n : Nat) (l : Line) (v : Nat),
    let T := s.tree t
    let tells := fun (m : LineMsg) (u : State) => s.tellSent t n m = u
    let only := fun (u : State) => u = { s with trees := u.trees, directory := u.directory } ∧ (∀ w, w ≠ t → u.tree w = s.tree w) ∧
      ∀ k, k ≠ l → u.slot t k = s.slot t k
    let joins := fun (ls : List Line) => if l ∈ ls then ls else ls ++ [l]
    let ofStep := fun (x : Test) =>
      let rest := x.awaited.filter (fun k => k ≠ l)
      if x.observing = false ∧ x.retry = [] ∧ rest = [] then
        { x with awaited := [], m := some n, observing := true, span := T.settings.span, counted := 0, lit := 0 }
      else { x with awaited := rest, m := some n }
    let withTest := fun (x : Test) => s.modTree t (fun T => { T with search := { T.search with test := some x } })
    (∀ start length target, tells (.call start length target) (s.modTree t (fun T =>
      { T with engine := { T.engine with window := T.engine.window.map (fun w => { w with opened := true }) } }))) ∧
    (∀ (i : Fin 4) (c : Context), T.engine.contexts[i] = some c → c.line = l →
      (∀ (j : Fin 4) d, j < i → T.engine.contexts[j] = some d → d.line ≠ l) →
      let x := s.slot t l
      (c.phase = .delayWait → ∃ u, tells (.delay l v .provisional) u ∧ only u ∧
        (x.state ≠ .assigned → u.slot t l = { x with eqd := c.provisional } ∧ u.directory = s.directory) ∧
        (x.state = .assigned → u.slot t l = { x with
          eqd := c.provisional, state := .ranging, miss := 0, drift := {}, misplaced := 0, cooldown := 0, cause := none
          expiry := .quiet, deficit := 0 }) ∧
        (u.tree t).engine.contexts[i] = some { c with phase := .rangeWait, accepted := true, frame := none } ∧
        (∀ j : Fin 4, j ≠ i → (u.tree t).engine.contexts[j] = T.engine.contexts[j]) ∧
        (u.tree t).engine.window = T.engine.window ∧ (u.tree t).search = T.search ∧ (u.tree t).framer = T.framer ∧
        (u.tree t).planner = { T.planner with rangingList := joins T.planner.rangingList }) ∧
      (c.phase ≠ .delayWait → tells (.delay l v .provisional) s) ∧
      (c.phase = .finalWait → ∃ u, tells (.delay l v .final) u ∧ only u ∧ u.slot t l = x ∧ u.directory = s.directory ∧
        u.tree t = { T with engine := (u.tree t).engine, planner := { T.planner with verifyList := joins T.planner.verifyList } } ∧
        (u.tree t).engine = { T.engine with contexts := (u.tree t).engine.contexts } ∧
        (u.tree t).engine.contexts[i] = some { c with phase := .verifyWait, accepted := true, frame := none } ∧
        ∀ j : Fin 4, j ≠ i → (u.tree t).engine.contexts[j] = T.engine.contexts[j]) ∧
      (c.phase ≠ .finalWait → tells (.delay l v .final) s)) ∧
    ((s.slot t l).driftDelay = .unsent → tells (.delay l v .drift) (s.modSlot t l (fun x => { x with driftDelay := .sent n }))) ∧
    ((s.slot t l).driftDelay ≠ .unsent → tells (.delay l v .drift) s) ∧
    (∀ x, T.search.test = some x → l ∈ x.awaited →
      tells (.mute l (some x.step)) (withTest (ofStep x)) ∧ tells (.unmute l (some x.step)) (withTest (ofStep x))) ∧
    tells (.delay l v .abandoned) s ∧
    (∀ serial, tells (.assign serial l) s ∧ tells (.mute l none) s ∧ tells (.unmute l none) s ∧ tells (.dismiss l) s ∧ tells .dismissAll s)) ∧
  ∀ (s : State) (t : TreeId), s.inReset = false → (s.tree t).receiver.lists.length < 3 →
    ((s.tree t).started = false ∨ ∀ v, (s.tree v).started = true) →
    let n := if (s.tree t).started then s.time.count + 1 else s.time.count
    let T := s.tree t
    let q := T.framer
    let sent := (q.urgent ++ q.ordinary.filter (fun m => m.callFor n) ++ q.ordinary.filter (fun m => !m.isCall)).take 16
    let missed := (∃ m ∈ q.ordinary, m.callFor n = true) ∧ ∀ m ∈ sent, m.callFor n = false
    ∃ (u v : State) (R : TreeState), exec (.frameStart t) s = .next u ∧
      (u.tree t).framer.sent.map DownFrame.messages = some sent ∧
      -- the tree that is planned, and the state whose blocks are told
      R = { T with started := true, lastTry := none, planner := R.planner, slots := R.slots } ∧
      R.planner = { T.planner with hold := R.planner.hold } ∧ (∀ l, R.slot l = { s.slot t l with service := (R.slot l).service }) ∧
      (let P := (R.buildPlan n).1
       (v.tree t).search = T.search ∧ (v.tree t).settings = T.settings ∧
       (v.tree t).engine = (if missed then
           { P.engine with counter := 0, window := none, refusedCall := none, skipped := bump T.engine.skipped }
         else { P.engine with counter := if T.settings.di ≤ T.engine.counter then T.engine.counter else T.engine.counter + 1 }) ∧
       (v.tree t).planner = (if missed then { P.planner with quiet := none } else P.planner)) ∧
      (∀ l, let x := s.slot t l
        (v.slot t l).state = (if x.state = .cooldown ∧ x.cooldown ≤ 1 then .active else x.state) ∧ (v.slot t l).eqd = x.eqd ∧
        (v.slot t l).driftDelay = x.driftDelay ∧ (v.slot t l).drift = x.drift ∧ (v.slot t l).muted = x.muted) ∧
      -- and what they are after the last message
      let w := sent.foldl (fun a m => a.tellSent t n m) v
      (u.tree t).engine = (w.tree t).engine ∧ (u.tree t).planner = (w.tree t).planner ∧ (u.tree t).search = (w.tree t).search ∧
      u.directory = w.directory ∧
      ∀ l, (u.slot t l).state = (w.slot t l).state ∧ (u.slot t l).eqd = (w.slot t l).eqd ∧
        (u.slot t l).driftDelay = (w.slot t l).driftDelay ∧ (u.slot t l).drift = (w.slot t l).drift ∧
        (u.slot t l).muted = (w.slot t l).muted

/-- The passes of a plan (R85 to R87) and the plan they make (R77 to R84, R88 to R91).

The committed pass gives each ACTIVE home in rotation order min(B, K, PR_eff), its reservation given back first, cut to what is left for the home
that no longer fits; the homes after a cut grant have none, and nothing is left. The excess set drops members without a committed grant from the end
until the rest have room, and shares the pool by weight; the home of a cut grant has no share.

The plan: the quiet portion and what is carried on, the ranging windows from its end, and the span; below the cost of the status set status grants
alone, as many as fit; else the verify grants, then a status grant for each home of the set without a data grant, and the data grants, back to back.
Credit accrues and falls by the committed bytes, frames-since-grant counts, the pointer moves past the first home, and the contexts are told their
frames. The grants are disjoint, lie in the span and before the search and probe windows, and no slot has two (R89); that the pool is lowered where
rounded shares would break this, and that a line of both lists is placed once, are the model's (log entry 37). The model's are also which sentences
of R85 and R87 win where their steps and R86 say otherwise of a cut grant (log entries 64 and 65), that no search window is laid in a frame that a
quiet portion covers as a whole (log entry 33), and what the dark SU of the summary are: the span less its grants (log entry 38). -/
def Obligations.PlansFollowThePasses : Prop :=
  (∀ (o r : Nat) (before : List PlanHome) (h : PlanHome) (after : List PlanHome), (∀ k ∈ before, k.g1 = 0) →
    let cut := ∃ k ∈ (committedPass o r before).1, 0 < k.g1 ∧ k.g1 < min k.b (min k.k k.pr)
    let r1 := (committedPass o r before).2
    let back := if h.inSet then r1 + (o + 2) else r1
    let g := min h.b (min h.k h.pr)
    let gives := fun (h' : PlanHome) (r' : Nat) =>
      committedPass o r (before ++ h :: after) =
        ((committedPass o r before).1 ++ h' :: (committedPass o r' after).1, (committedPass o r' after).2)
    (cut → committedPass o r (before ++ h :: after) = ((committedPass o r before).1 ++ h :: after, 0)) ∧
    (¬ cut → (h.active = false ∨ g = 0) → gives h r1) ∧
    (¬ cut → h.active = true → 0 < g → (g + 4) / 5 + o ≤ back → gives { h with g1 := g } (back - ((g + 4) / 5 + o))) ∧
    (¬ cut → h.active = true → 0 < g → back < (g + 4) / 5 + o → o + 1 ≤ back →
      committedPass o r (before ++ h :: after) =
        ((committedPass o r before).1 ++ { h with g1 := min g (5 * (back - o)) } :: after, 0)) ∧
    (¬ cut → h.active = true → 0 < g → back < (g + 4) / 5 + o → back < o + 1 → gives h r1)) ∧
  (∀ (o room r : Nat) (homes : List PlanHome), homes.Pairwise (fun g h => g.line ≠ h.line) →
    let d := fun (h : PlanHome) => min (h.b - h.g1) (h.pr - h.g1)
    let olds := homes.filter (fun h => h.active && decide (0 < d h) && decide (0 < h.g1))
    let news := homes.filter (fun h => h.active && decide (0 < d h) && decide (h.g1 = 0))
    let left := fun (k : Nat) => r + ((news.take k).map (fun h => if h.inSet then o + 2 else 0)).sum
    let fits := fun (k : Nat) => k ≤ news.length ∧ k * o + (olds.length + k) ≤ left k
    let out := excessPass o room r homes
    ((∀ k, ¬ fits k) → out = (homes, news.length)) ∧
    ∀ k, fits k → (∀ j, k < j → ¬ fits j) →
      let set := olds ++ news.take k
      let pool := 5 * (left k - k * o - (olds.length + k))
      let shared := fun (pool : Nat) => homes.map (fun h =>
        if h ∈ set then
          { h with share := if 0 < h.g1 ∧ h.g1 < min h.b (min h.k h.pr) then 0 else min (d h) (pool * h.w / (set.map PlanHome.w).sum) }
        else h)
      out.2 = news.length - k ∧
      (homesSU o (shared pool) ≤ room → out.1 = shared pool) ∧
      (room < homesSU o (shared pool) → out.1 = homes ∨ ∃ lower, lower < pool ∧ homesSU o (shared lower) ≤ room ∧ out.1 = shared lower)) ∧
  ∀ (T : TreeState) (n : Nat), T.planner.rangingList.Nodup → T.planner.verifyList.Nodup →
    (∀ (i j : Fin 4) c d, T.engine.contexts[i] = some c → T.engine.contexts[j] = some d → c.line = d.line → i = j) →
    let P := (T.buildPlan n).1
    let p := (T.buildPlan n).2
    let o := T.settings.overhead
    let limit := if T.search.running then 15049 else 15561
    let begins := T.planner.quiet.filter (fun w => decide (w.1 = n))
    let carried := T.planner.remainder.filter (fun w => decide (w.1 = n))
    let quiet := match begins, carried with
      | some w, _ => min w.2 15625
      | none, some w => w.2
      | none, none => 0
    let may := fun (l : Line) => decide ((T.slot l).state = .ranging) && !(T.slot l).muted
    let ranged := (T.planner.rangingList.filter may).take ((limit - quiet) / 384)
    let spanStart := quiet + 384 * ranged.length
    let span := limit - spanStart
    let serves := fun (l : Line) =>
      (decide ((T.slot l).state = .active) || decide ((T.slot l).state = .cooldown)) && !(T.slot l).muted
    let order := ((List.range 128).map (fun i => T.planner.rotation + Fin.ofNat 128 i)).filter serves
    let rate := fun (x : Slot) (v tr : Nat) => if x.isThrottled then min v tr else v
    let home := fun (l : Line) =>
      let x := T.slot l
      let active := decide (x.state = .active)
      let due := decide (x.state = .cooldown) || decide (T.settings.statusInterval ≤ x.sinceGrant)
      match x.service with
      | some r =>
        ({ line := l, active := active, inSet := due
           k := if active then min (r.k + rate x r.live.cr r.live.tr) r.live.ba else r.k, b := r.b
           pr := rate x r.live.pr r.live.tr, w := r.live.w, g1 := 0, share := 0 } : PlanHome)
      | none => { line := l, active := active, inSet := due, k := 0, b := 0, pr := 0, w := 0, g1 := 0, share := 0 }
    let homes := order.map home
    let set := order.filter (fun l => (home l).inSet)
    let total := (o + 2) * set.length
    let short := span < total
    let asked := T.planner.verifyList.filter (fun l => may l && decide (l ∉ ranged))
    let verified := if short then [] else asked.take ((span - total) / (o + 2))
    let room := span - (o + 2) * verified.length
    let committed := committedPass o (room - total) homes
    let final := if short then homes else (excessPass o room committed.2 committed.1).1
    let status := if short then set.take (span / (o + 2)) else
      (final.filter (fun h => h.inSet && (!h.active || decide (h.g1 + h.share = 0)))).map (fun h => h.line)
    let data := final.filter (fun h => decide (0 < h.g1 + h.share))
    let fixed := fun (kind : GrantKind) (first step length : Nat) (ls : List Line) =>
      (ls.zip (List.range ls.length)).map (fun q => ({ line := q.1, kind := kind, start := first + step * q.2, length := length } : Grant))
    -- the quiet portion, the windows and the grants
    p.frame = n ∧ p.overhead = o ∧ p.ert = T.settings.ert ∧ p.quiet = quiet ∧
    p.search = (T.search.running && decide (quiet < 15625)) ∧ p.probe = decide (quiet < 15625) ∧
    p.windows = (List.range ranged.length).map (fun i => quiet + 384 * i) ∧
    p.grants.filter (fun g => decide (g.kind = .ranging)) = fixed .ranging (quiet + 128) 384 128 ranged ∧
    p.grants.filter (fun g => decide (g.kind = .status)) = fixed .status spanStart (o + 2) (o + 2) (verified ++ status) ∧
    (p.grants.filter (fun g => decide (g.kind = .data))).map (fun g => (g.line, g.length)) =
      data.map (fun h => (h.line, (h.g1 + h.share + 4) / 5 + o)) ∧
    (p.grants.filter (fun g => decide (g.kind ≠ .ranging))).head?.all (fun g => decide (g.start = spanStart)) = true ∧
    (∀ before g h after, p.grants = before ++ g :: h :: after → g.kind ≠ .ranging → h.start = g.start + g.length) ∧
    -- the law of the plan
    p.grants.Pairwise (fun g h => g.start + g.length ≤ h.start ∧ g.line ≠ h.line) ∧
    (∀ g ∈ p.grants, quiet ≤ g.start ∧ g.start + g.length ≤ limit ∧ (g.kind ≠ .ranging → spanStart ≤ g.start)) ∧
    (∀ h ∈ final, h.g1 + h.share ≤ h.pr) ∧
    -- the books
    P.planner = { T.planner with
      rotation := match order with | l :: _ => l + 1 | [] => T.planner.rotation
      quiet := T.planner.quiet.filter (fun w => decide (w.1 ≠ n))
      remainder := match begins, carried with
        | some w, _ => if 15625 < w.2 then some (n + 1, w.2 - 15625) else none
        | none, some _ => none
        | none, none => T.planner.remainder
      rangingList := T.planner.rangingList.filter (fun l => decide ((T.slot l).state = .ranging ∧ l ∉ ranged))
      verifyList := if short then T.planner.verifyList else
        T.planner.verifyList.filter (fun l => decide ((T.slot l).state = .ranging ∧ l ∉ verified))
      summary := P.planner.summary } ∧
    P.planner.summary.frame = n ∧ P.planner.summary.span = span ∧ P.planner.summary.dataGrants = data.length ∧
    P.planner.summary.statusGrants = (verified ++ status).length ∧ P.planner.summary.rangingGrants = ranged.length ∧
    P.planner.summary.granted = (p.grants.map Grant.length).sum ∧
    P.planner.summary.granted + P.planner.summary.dark = span + 128 * ranged.length ∧
    P.planner.summary.waited = (if short then set.length - span / (o + 2) else 0) ∧
    P.planner.summary.dropped = (if short then 0 else (excessPass o room committed.2 committed.1).2) ∧
    (∀ (i : Fin 4) c, T.engine.contexts[i] = some c →
      P.engine.contexts[i] = some { c with
        frame := if c.phase = .rangeWait ∧ c.line ∈ ranged ∨ c.phase = .verifyWait ∧ c.line ∈ verified then some n else c.frame }) ∧
    ∀ l, let x := T.slot l
      let spent := match final.find? (fun h => decide (h.line = l)) with | some h => h.g1 | none => 0
      let granted := ∃ g ∈ p.grants, g.line = l ∧ g.kind ≠ .ranging
      (x.service = none → P.slot l = { x with sinceGrant := (P.slot l).sinceGrant }) ∧
      (∀ r, x.service = some r → P.slot l = { x with
        sinceGrant := (P.slot l).sinceGrant
        service := some { r with
          crEff := rate x r.live.cr r.live.tr, prEff := rate x r.live.pr r.live.tr, throttled := x.isThrottled
          k := if serves l then (home l).k - spent else r.k } }) ∧
      ((x.state = .active ∨ x.state = .cooldown) → (granted → (P.slot l).sinceGrant = 0) ∧
        (¬ granted → (P.slot l).sinceGrant = min (x.sinceGrant + 1) 65535)) ∧
      (x.state ≠ .active → x.state ≠ .cooldown → (P.slot l).sinceGrant = x.sinceGrant)

/-! ## The burst receiver and the light watch -/

/-- GRANT_OUTCOME for a slot in ACTIVE or COOLDOWN that holds no context: the miss count, drift run and misplaced count take the values of R58 by the
class of the arrival, its check playing no part; the fourth miss makes the slot LOST with its entry's age 0, HOME_LOST raised and a DISMISS offered; a
good burst hands its backlog to the service record, and its packets are stale where no account is open. -/
def Obligations.GrantOutcomesWriteTheCounters : Prop :=
  ∀ (s : State) (t : TreeId) (l : Line) (a : ArrivalList) (rest : List ArrivalList) (g : ListedGrant), s.inReset = false →
    (s.tree t).receiver.lists = a :: rest → a.grants.find? (ListedGrant.awaits l) = some g →
    ((s.slot t l).state = .active ∨ (s.slot t l).state = .cooldown) →
    (∀ (j : Fin 4) c, (s.tree t).engine.contexts[j] = some c → c.line ≠ l) →
    let x := s.slot t l
    let R := (s.tree t).receiver
    let only := fun (u : State) => (∀ k, k ≠ l → u.slot t k = s.slot t k) ∧ ∀ v, v ≠ t → u.tree v = s.tree v
    (x.muted = true →
      ∃ u, exec (.grantOutcome t l none) s = .next u ∧ only u ∧ u.slot t l = x ∧ (u.tree t).receiver.missed = bump R.missed) ∧
    (x.muted = false → x.miss < 3 →
      ∃ u, exec (.grantOutcome t l none) s = .next u ∧ only u ∧ u.slot t l = { x with miss := x.miss + 1 } ∧
        (u.tree t).receiver.missed = bump R.missed) ∧
    (x.muted = false → 3 ≤ x.miss → ∀ y, s.serialOf t l = some y →
      ∃ u, exec (.grantOutcome t l none) s = .next u ∧ only u ∧
        u.slot t l = { x with state := .lost, miss := 4, expiry := .quiet, deficit := 0 } ∧
        u.directory = (s.setAge t l (some 0)).directory ∧
        u.links = (s.raise .homeLost (some t) (.line l) (.serial y)).links ∧
        ((s.tree t).framer.count < 64 →
          (u.tree t).framer = { (s.tree t).framer with urgent := (s.tree t).framer.urgent ++ [.dismiss l] }) ∧
        (64 ≤ (s.tree t).framer.count → (u.tree t).framer = (s.tree t).framer ∧ l ∈ (u.tree t).engine.dismissHeld)) ∧
    (∀ (b : Burst) (good : Bool) (backlog : Nat) (ps : List Packet), b.e.natAbs ≤ 320 →
      unpackBurst l (5 * (g.grant.length - a.plan.overhead)) b.bytes = { good := good, backlog := backlog, packets := ps } →
      (good = true → ps ≠ [] → x.accountOpen = false) →
      let service := if good then x.service.map (fun r => { r with b := backlog }) else x.service
      let run := if x.drift.length = 0 ∨ x.drift.sign = some (if 0 < b.e then .late else .early) then x.drift.length + 1 else 1
      let free := x.driftDelay = .none ∨ ∃ m, x.driftDelay = .sent m ∧ m < a.plan.frame
      let ends := fun (y : Slot) =>
        ∃ u, exec (.grantOutcome t l (some b)) s = .next u ∧ only u ∧ u.slot t l = y ∧
          (u.tree t).receiver.arrived = bump R.arrived ∧ (u.tree t).receiver.bad = (if good then R.bad else bump R.bad) ∧
          (u.tree t).receiver.stale =
            (if good ∧ x.accountOpen = false then min (R.stale + ps.length) 4294967295 else R.stale) ∧
          (u.tree t).traffic = (s.tree t).traffic
      (¬ free → ends { x with miss := 0, service := service }) ∧
      (free → b.e.natAbs ≤ 8 →
        ends { x with miss := 0, driftDelay := .none, drift := {}, misplaced := 0, service := service }) ∧
      (free → 8 < b.e.natAbs → b.e.natAbs ≤ 80 → run < 8 →
        ends { x with miss := 0, driftDelay := .none, misplaced := 0, service := service
                      drift := { length := run, sign := some (if 0 < b.e then .late else .early) } }) ∧
      (free → 80 < b.e.natAbs → x.misplaced < 3 →
        ends { x with miss := 0, driftDelay := .none, drift := {}, misplaced := x.misplaced + 1, service := service }))

/-- What the receiver reads from a burst, and GRANT_OUTCOME beside the counters of R58. A byte space holds a burst where it is a header of 4 bytes,
packets of 64 to 2,000 bytes each after its length, the terminator, whatever fill, and 4 bytes of check: then those packets are read, and the burst
is good exactly where the space is the grant's, the low seven bits of its first byte name the grant's line, and the check is that of header, packets
and terminator. Any other space is bad (R13, R95); that one which does not fill its grant is bad is the model's (log entry 44). The backlog is bytes
1 to 3.

In every state the grant is marked, the report of the frame counts it as expected unless a miss of it is not (a muted slot, or one in none of
ACTIVE, COOLDOWN and RANGING), as bad where its check failed (R104), and a good burst's packets go one by one to the uplink queue, or are stale
where no account is open (R96). For a slot that is neither ACTIVE nor COOLDOWN, whose grant no context awaits as its verify, a good burst hands over
its backlog and nothing else of the slot changes (R97).

The eighth drifting burst of a run corrects the delay by its error, offers it, holds the offer while the queue refuses it, or ends the run where the
delay cannot be reached (R61). The fourth misplaced burst begins a RETURN ranging, where a context is free (R62). A burst more than 320 bit times
from its place counts as missed (log entry 44). -/
def Obligations.ArrivalsAreReportedCorrectedAndReRanged : Prop :=
  (∀ (l : Line) (space : Nat) (bytes : List Byte),
    let r := unpackBurst l space bytes
    let covered := fun (header : List Byte) (ps : List Packet) => header ++ ps.flatMap (fun p => bytesOf 2 p.length ++ p) ++ [0, 0]
    let holds := fun (header : List Byte) (ps : List Packet) (fill check : List Byte) =>
      bytes = covered header ps ++ fill ++ check ∧ header.length = 4 ∧ check.length = 4 ∧ ∀ p ∈ ps, 64 ≤ p.length ∧ p.length ≤ 2000
    r.backlog = natOf ((bytes.drop 1).take 3) ∧
    (∀ header ps fill check, holds header ps fill check →
      r.packets = ps ∧
      (r.good = true ↔
        bytes.length = space ∧ natOf (header.take 1) % 128 = l.val ∧ natOf check = (check32 (covered header ps)).toNat)) ∧
    ((∀ header ps fill check, ¬ holds header ps fill check) → r.good = false ∧ r.packets = [])) ∧
  ∀ (s : State) (t : TreeId) (l : Line) (a : ArrivalList) (rest : List ArrivalList) (g : ListedGrant), s.inReset = false →
    (s.tree t).receiver.lists = a :: rest → a.grants.find? (ListedGrant.awaits l) = some g →
    let n := a.plan.frame
    let T := s.tree t
    let x := s.slot t l
    let reads := unpackBurst l (5 * (g.grant.length - a.plan.overhead))
    let serves := x.state = .active ∨ x.state = .cooldown
    let noted := fun (m : GrantMark) (expected bad : Bool) =>
      ({ a with grants := a.grants.map (fun g => if g.awaits l then { g with mark := m } else g)
                expected := if expected then a.expected + 1 else a.expected, bad := if bad then a.bad + 1 else a.bad } : ArrivalList)
    let only := fun (u : State) => u.links = s.links ∧ u.meter = s.meter ∧ u.directory = s.directory ∧
      (∀ v, v ≠ t → u.tree v = s.tree v) ∧ ∀ k, k ≠ l → u.slot t k = s.slot t k
    -- the mark and the report
    (∀ found : Option Burst, (∀ b, found = some b → 320 < b.e.natAbs) →
      ∃ u, exec (.grantOutcome t l found) s = .next u ∧ (u.tree t).receiver.missed = bump T.receiver.missed ∧
        (u.tree t).receiver.lists = noted .missed (!x.muted && decide (serves ∨ x.state = .ranging)) false :: rest) ∧
    (∀ b : Burst, b.e.natAbs ≤ 320 →
      let good := (reads b.bytes).good
      ∃ u, exec (.grantOutcome t l (some b)) s = .next u ∧ (u.tree t).receiver.arrived = bump T.receiver.arrived ∧
        (u.tree t).receiver.bad = (if good then T.receiver.bad else bump T.receiver.bad) ∧
        (u.tree t).receiver.lists = noted (.found ((g.grant.start : Int) + b.e / 40) (decide (false ∈ b.guard))) true (!good) :: rest) ∧
    -- the packets
    (∀ (b b0 : Burst) (backlog : Nat) (ps : List Packet) (v : State), b.e.natAbs ≤ 320 → b0.e = b.e → b0.guard = b.guard →
      reads b.bytes = { good := true, backlog := backlog, packets := ps } →
      reads b0.bytes = { good := true, backlog := backlog, packets := [] } → exec (.grantOutcome t l (some b0)) s = .next v →
      exec (.grantOutcome t l (some b)) s = .next
        (if (v.slot t l).accountOpen then ps.foldl (fun u p => u.admitUplink t l p) v
        else v.modTree t (fun T => { T with
          receiver := { T.receiver with stale := min (T.receiver.stale + ps.length) 4294967295 } }))) ∧
    -- the other states
    (¬ serves → (∀ (j : Fin 4) c, T.engine.contexts[j] = some c → c.line = l → ¬ (c.phase = .verifyWait ∧ c.frame = some n)) →
      (∃ u, exec (.grantOutcome t l none) s = .next u ∧ only u ∧
        u.tree t = { T with receiver := (u.tree t).receiver }) ∧
      ∀ (b : Burst) (good : Bool) (backlog : Nat), b.e.natAbs ≤ 320 →
        reads b.bytes = { good := good, backlog := backlog, packets := [] } →
        ∃ u, exec (.grantOutcome t l (some b)) s = .next u ∧ only u ∧
          u.tree t = { T with receiver := (u.tree t).receiver, slots := (u.tree t).slots } ∧
          u.slot t l = { x with service := if good then x.service.map (fun r => { r with b := backlog }) else x.service }) ∧
    -- the eighth drifting burst and the fourth misplaced one
    ∀ (b : Burst) (good : Bool) (backlog : Nat), serves → (∀ (j : Fin 4) c, T.engine.contexts[j] = some c → c.line ≠ l) →
      b.e.natAbs ≤ 320 → reads b.bytes = { good := good, backlog := backlog, packets := [] } →
      (x.driftDelay = .none ∨ ∃ m, x.driftDelay = .sent m ∧ m < n) →
      let y : Slot :=
        { x with miss := 0, driftDelay := .none, service := if good then x.service.map (fun r => { r with b := backlog }) else x.service }
      let sign : DriftSign := if 0 < b.e then .late else .early
      let run : DriftRun := { length := 8, sign := some sign }
      let delay : Int := (x.eqd : Int) - b.e
      let drifts := fun (slot : Slot) (ordinary : List LineMsg) (held : List (Line × Nat)) =>
        ∃ u, exec (.grantOutcome t l (some b)) s = .next u ∧ only u ∧ u.slot t l = slot ∧
          (u.tree t).framer = { T.framer with ordinary := T.framer.ordinary ++ ordinary } ∧
          (u.tree t).engine = { T.engine with driftHeld := held }
      let without := T.engine.driftHeld.filter (fun p => decide (p.1 ≠ l))
      (8 < b.e.natAbs → b.e.natAbs ≤ 80 → (x.drift.length = 7 ∨ x.drift.length = 8) → x.drift.sign = some sign →
        ((delay < 0 ∨ (40 * T.settings.ert : Int) < delay) → drifts { y with drift := {}, misplaced := 0 } [] without) ∧
        (∀ d : Nat, delay = d → d ≤ 40 * T.settings.ert →
          ((∀ p ∈ T.engine.driftHeld, p.1 ≠ l) → T.framer.count < 64 →
            drifts { y with drift := {}, misplaced := 0, eqd := d, driftDelay := .unsent } [.delay l d .drift] without) ∧
          ((∀ p ∈ T.engine.driftHeld, p.1 ≠ l) → 64 ≤ T.framer.count →
            drifts { y with drift := run, misplaced := 0 } [] (T.engine.driftHeld ++ [(l, d)])) ∧
          ((∃ p ∈ T.engine.driftHeld, p.1 = l) →
            drifts { y with drift := run, misplaced := 0 } []
              (T.engine.driftHeld.map (fun p => if p.1 = l then (l, d) else p))))) ∧
      (80 < b.e.natAbs → x.misplaced = 3 →
        ((∀ i : Fin 4, T.engine.contexts[i] ≠ none) → drifts { y with drift := {}, misplaced := 4 } [] without) ∧
        ∀ i : Fin 4, T.engine.contexts[i] = none → (∀ j, j < i → T.engine.contexts[j] ≠ none) →
          ∃ u c, exec (.grantOutcome t l (some b)) s = .next u ∧ u.directory = (s.setAge t l none).directory ∧ u.links = s.links ∧
            u.meter = s.meter ∧ (∀ v, v ≠ t → u.tree v = s.tree v) ∧ (∀ k, k ≠ l → u.slot t k = s.slot t k) ∧
            u.slot t l = { y with state := .ranging, drift := {}, misplaced := 0, cooldown := 0, cause := none, expiry := .quiet
                                  deficit := 0 } ∧
            (u.tree t).engine.contexts = T.engine.contexts.set i (some c) ∧ c.line = l ∧ c.kind = .returning ∧ c.coarse = none ∧
            c.provisional = x.eqd ∧ c.prior = none ∧ c.attempts = 0 ∧ c.phase = .rangeWait ∧ c.frame = none ∧
            l ∈ (u.tree t).planner.rangingList)

/-- OVERRUN, where a burst found with a clean onset is still lit 8 SU after the end of its grant: the tree counts it, the grant is charged once, and
the slot acts by its state as R100 gives. COOLDOWN_END, while one cooldown frame is left, makes the slot ACTIVE with cooldown frames 0 and its other
counters kept; that it is a command of its own, and that the guard given with an OVERRUN decides the onset where the outcome comes second, are the
model's (log entries 12 and 44). -/
def Obligations.OverrunsAreChargedByState : Prop :=
  (∀ (s : State) (t : TreeId) (l : Line) (a : ArrivalList) (rest : List ArrivalList) (before after : List ListedGrant)
      (g : ListedGrant) (guard : GuardLight) (runEnd : Nat), s.inReset = false → (s.tree t).receiver.lists = a :: rest →
    a.grants = before ++ [g] ++ after → (∀ y ∈ before ++ after, y.grant.line ≠ l) → g.grant.line = l → g.grant.kind ≠ .ranging →
    g.charged = false → (g.mark = .pending ∧ false ∈ guard ∨ ∃ st, g.mark = .found st true) → g.grant.start + g.grant.length + 8 < runEnd →
    let x := s.slot t l
    let hears := exec (.overrun t l guard runEnd) s
    let counted := { x with overruns := min (x.overruns + 1) 255 }
    let first : ArrivalList := { a with grants := before ++ [{ g with charged := true }] ++ after }
    let charged := s.modTree t (fun T =>
      { T with receiver := { T.receiver with lists := first :: rest, overruns := bump T.receiver.overruns } })
    let serial := (s.serialOf t l).getD 0
    ((x.state = .free ∨ x.state = .assigned) → hears = .next charged) ∧
    ((x.state = .ranging ∨ x.state = .lost ∨ x.state = .quarantined) → hears = .next (charged.modSlot t l (fun _ => counted))) ∧
    (x.state = .active →
      hears = .next ((charged.modSlot t l (fun _ => { counted with state := .cooldown, cooldown := 400 })).raise .overrun (some t)
        (.line l) (.serial serial))) ∧
    (x.state = .cooldown →
      ∃ u, hears = .next u ∧
        u.slot t l = { counted with state := .quarantined, cause := some .overrun, muted := true, expiry := .quiet } ∧
        (∀ k, k ≠ l → u.slot t k = s.slot t k) ∧ (∀ v, v ≠ t → u.tree v = s.tree v) ∧
        u.links = (s.raise .quarantined (some t) (.line l) (.quarantined serial .overrun)).links ∧
        ((s.tree t).framer.count < 64 →
          (u.tree t).framer = { (s.tree t).framer with urgent := (s.tree t).framer.urgent ++ [.mute l none] }) ∧
        (64 ≤ (s.tree t).framer.count → (u.tree t).framer = (s.tree t).framer ∧ l ∈ (u.tree t).receiver.muteWaits))) ∧
  (∀ (s : State) (t : TreeId) (l : Line), s.inReset = false → (s.slot t l).state = .cooldown → (s.slot t l).cooldown = 1 →
    exec (.cooldownEnd t l) s = .next (s.modSlot t l (fun x => { x with state := .active, cooldown := 0 })))

/-- RECEIVE_FRAME_END reports the oldest receive frame once its outcomes are all reported and what the last report brought has been taken (log entry
13). Its list is discarded, and it is a dark-light frame exactly when some lit SU of a watched zone is attributed to no light run. Watched are the
search window, the probe window, and every idle stretch of at least 32 SU but its first and last 8; nothing in a wholly quiet frame (R93, R103). A
light run is that of a burst found with a clean onset, from 4 SU after its start, or the one carried in from the frame before, which every burst of
this frame cuts; it goes on through lit SUs to the start of the next burst found, and passes into the next frame where it holds the last SU (R99;
runs by log entry 36).

The light watch adds the frame to its counts unless the tree is SEARCHING, its 64th report makes the period end due, and a test in stage OBSERVING
counts it above frame m; where a test has no m every frame counts (log entry 31). -/
def Obligations.ReceiveFramesAreReported : Prop :=
  ∀ (s : State) (t : TreeId) (a : ArrivalList) (rest : List ArrivalList) (light : List Stretch), s.inReset = false →
    (s.tree t).receiver.lists = a :: rest → (∀ g ∈ a.grants, g.mark ≠ .pending) → (s.tree t).watch.periodDue = none →
    (∀ x, (s.tree t).search.test = some x → x.observing = true → x.counted < x.span) →
    let T := s.tree t
    let n := a.plan.frame
    let lit := fun (p : Nat) => ∃ x ∈ light, x.lo ≤ p ∧ p < x.hi
    let searched := fun (p : Nat) => a.plan.search = true ∧ 15049 ≤ p ∧ p < 15561
    let probed := fun (p : Nat) => a.plan.probe = true ∧ 15561 ≤ p ∧ p < 15625
    let idle := fun (p : Nat) => a.plan.quiet ≤ p ∧ (∀ w ∈ a.plan.windows, ¬ (w ≤ p ∧ p < w + 384)) ∧
      (∀ g ∈ a.plan.grants, ¬ (g.start ≤ p ∧ p < g.start + g.length)) ∧ ¬ searched p ∧ ¬ probed p
    let watched := fun (p : Nat) => searched p ∨ probed p ∨
      ∃ lo hi, lo + 32 ≤ hi ∧ hi ≤ 15625 ∧ (∀ q, lo ≤ q → q < hi → idle q) ∧ lo + 8 ≤ p ∧ p + 8 < hi
    let found := fun (start : Int) (clean : Bool) => ∃ g ∈ a.grants, g.grant.kind ≠ .ranging ∧ g.mark = .found start clean
    let runs := fun (since own : Int) (p : Nat) => since ≤ (p : Int) ∧ (∀ q : Nat, since ≤ (q : Int) → q ≤ p → lit q) ∧
      ∀ start clean, found start clean → own < start → (p : Int) < start
    let attributed := fun (p : Nat) => (T.receiver.carryRun = true ∧ runs 0 (-16) p) ∨
      ∃ start, found start true ∧ runs (start + 4) start p
    ∃ (u : State) (dark : Bool), exec (.receiveFrameEnd t light) s = .next u ∧
      (dark = true ↔ ∃ p, lit p ∧ watched p ∧ ¬ attributed p) ∧
      (15625 ≤ a.plan.quiet → a.plan.search = false → a.plan.probe = false → dark = false) ∧
      u = { s with trees := u.trees } ∧ (∀ v, v ≠ t → u.tree v = s.tree v) ∧
      u.tree t = { T with receiver := (u.tree t).receiver, watch := (u.tree t).watch, search := (u.tree t).search } ∧
      (u.tree t).receiver = { T.receiver with
        lists := rest, darkFrames := if dark then bump T.receiver.darkFrames else T.receiver.darkFrames
        carryRun := (u.tree t).receiver.carryRun, lastEnded := some n } ∧
      ((u.tree t).receiver.carryRun = true ↔ attributed 15624) ∧
      (u.tree t).watch = { T.watch with current := (u.tree t).watch.current, periodDue := (u.tree t).watch.periodDue } ∧
      (u.tree t).watch.rogue = T.watch.rogue ∧ (u.tree t).watch.last = T.watch.last ∧
      ((T.watch.rogue = .searching ∨ n < T.watch.first) → (u.tree t).watch.current = T.watch.current) ∧
      (T.watch.rogue ≠ .searching → T.watch.first ≤ n →
        (u.tree t).watch.current = { d := if dark then T.watch.current.d + 1 else T.watch.current.d
                                     n := T.watch.current.n + a.expected, bb := T.watch.current.bb + a.bad
                                     frames := T.watch.current.frames + 1 }) ∧
      (∀ k, n = T.watch.first + 64 * k + 63 → (u.tree t).watch.periodDue = some (T.watch.first + 64 * k)) ∧
      ((∀ k, n ≠ T.watch.first + 64 * k + 63) → (u.tree t).watch.periodDue = none) ∧
      (u.tree t).search = { T.search with test := (u.tree t).search.test } ∧
      (T.search.test = none → (u.tree t).search.test = none) ∧
      (∀ x, T.search.test = some x →
        let counts := x.observing = true ∧ (x.m = none ∨ ∃ m, x.m = some m ∧ m < n)
        (counts → (u.tree t).search.test =
          some { x with counted := x.counted + 1, lit := if dark then x.lit + 1 else x.lit }) ∧
        (¬ counts → (u.tree t).search.test = some x))

/-- WATCH_PERIOD_END judges the period whose last report has been counted: from CLEAR a rising condition gives SUSPECT with DARK_LIGHT raised, and
starts a search where automatic search is on; SUSPECT falls to CLEAR at or below the fall threshold unless the bad-burst rule holds; FOREIGN and
UNRESOLVED fall at or below it, but stay where a search has ended while the period's end was due (R109; log entry 63); SEARCHING stays. The counts
move to the last period. -/
def Obligations.WatchPeriodsAreJudged : Prop :=
  ∀ (s : State) (t : TreeId) (p : Nat), s.inReset = false → (s.tree t).watch.periodDue = some p →
    let T := s.tree t
    let c := T.watch.current
    let badRule := 32 ≤ c.n ∧ c.n ≤ 4 * c.bb
    let rises := T.settings.rise ≤ c.d ∨ badRule
    let falls := c.d ≤ T.settings.fall
    let judged := fun (r : Rogue) => s.modTree t (fun T =>
      { T with watch :=
          { T.watch with rogue := r, current := {}, last := c, lastFirst := p, periodDue := none, endedFirst := false } })
    let suspect := (judged .suspect).raise .darkLight (some t) .none (.darkLight c.d c.n c.bb)
    let ends := fun (u : State) => exec (.watchPeriodEnd t) s = .next u
    (T.watch.rogue = .clear → ¬ rises → ends (judged .clear)) ∧
    (T.watch.rogue = .clear → rises → T.settings.autoSearch = false → ends suspect) ∧
    (T.watch.rogue = .clear → rises → T.settings.autoSearch = true → ends (suspect.startSearch t)) ∧
    (T.watch.rogue = .suspect → ends (if falls ∧ ¬ badRule then judged .clear else judged .suspect)) ∧
    (T.watch.rogue = .searching → ends (judged .searching)) ∧
    (T.watch.rogue = .foreign → ends (if falls ∧ T.watch.endedFirst = false then judged .clear else judged .foreign)) ∧
    (T.watch.rogue = .unresolved → ends (if falls ∧ T.watch.endedFirst = false then judged .clear else judged .unresolved))

/-! ## The isolation search -/

/-- START_SEARCH, ABORT_SEARCH and READ_SEARCH. A search that starts skips a SCHEDULED window and frees every context, so that no DELAY left in the
queue carries out a context's step any more: the slot of a NEW one is freed with its entry in its prior state, that of a RETURN one is LOST with its
account and service record, its entry's age 0 and HOME_LOST raised, and a DISMISS is offered for each, held where the queue refuses it (R64). It
takes as its snapshot the lines that are neither FREE nor QUARANTINED, ascending, and begins a verify test over all of them, in which each is muted
or waits in the retry list; the tree is SEARCHING. It is refused BUSY while one runs. ABORT_SEARCH ends a running search: its stack and test are
dropped, every muted line that is not QUARANTINED goes onto the release list, the tree is SUSPECT, and SEARCH_DONE is raised. That the frame of an
abort is the last receive frame that ended, that SEARCH_DONE is raised before the reply, and the mark of a period end that was due, are the model's
(log entries 30, 23 and 63). -/
def Obligations.SearchRequestsStartAbortAndRead : Prop :=
  ∀ (s : State) (h : Head),
    (s.ready h .startSearch = true →
      let a := s.taken h ReqKind.startSearch.byte
      (4 ≤ h.tree → exec (.startSearch h) s = .next (a.answer h .startSearch { code := .badValue })) ∧
      ∀ t : TreeId, h.tree = t.val →
        ((s.tree t).watch.rogue = .searching → exec (.startSearch h) s = .next (a.answer h .startSearch { code := .busy })) ∧
        ((s.tree t).watch.rogue ≠ .searching →
          ∃ (u : State) (x : Test), exec (.startSearch h) s = .next (u.answer h .startSearch { code := .accepted }) ∧
            (u.tree t).watch.rogue = .searching ∧ (u.tree t).watch.current = {} ∧ (u.tree t).search.running = true ∧
            (u.tree t).search.stack = [] ∧ (u.tree t).search.release = [] ∧ (u.tree t).search.restarts = 0 ∧
            (u.tree t).search.quarantined = 0 ∧ (u.tree t).search.last = (s.tree t).search.last ∧
            (∀ i : Fin 4, (u.tree t).engine.contexts[i] = none) ∧
            (∀ (i : Fin 4) c, (s.tree t).engine.contexts[i] = some c → ∀ v use,
              LineMsg.delay c.line v use ∈ (u.tree t).framer.ordinary → use = .drift ∨ use = .abandoned) ∧
            (s.contextsLawful → s.linksLawful → ∀ (i : Fin 4) c, (s.tree t).engine.contexts[i] = some c →
              (.dismiss c.line ∈ (u.tree t).framer.urgent ∨ c.line ∈ (u.tree t).engine.dismissHeld) ∧
              ((s.tree t).framer.count ≤ 60 →
                (u.tree t).framer.urgent.count (.dismiss c.line) = (s.tree t).framer.urgent.count (.dismiss c.line) + 1) ∧
              ∃ p y o pin age, (s.slot t c.line).link = some p ∧
                storeGet s.directory p = some { serial := y, body := .present t c.line o pin age } ∧
                (c.kind = .new → u.slot t c.line = { Slot.free with account := (u.slot t c.line).account } ∧
                  (∀ b, o = .listed b → storeGet u.directory p = some { serial := y, body := .expected b pin }) ∧
                  (o = .opened → storeGet u.directory p = none)) ∧
                (c.kind = .returning →
                  u.slot t c.line = { s.slot t c.line with state := .lost, expiry := .quiet, deficit := 0
                                                           muted := (u.slot t c.line).muted } ∧
                  storeGet u.directory p = some { serial := y, body := .present t c.line o pin (some 0) } ∧
                  ∃ m, (m ∈ u.links.notices ∨ u.links.controller.sending = some (.notice m)) ∧ m.kind = .homeLost ∧
                    m.tree = some t ∧ (m.line = .line c.line ∨ m.line = .all))) ∧
            (∀ w, (s.tree t).engine.window = some w → w.opened = false →
              (u.tree t).engine.window = none ∧ (u.tree t).engine.skipped = bump (s.tree t).engine.skipped) ∧
            (u.tree t).search.snapshot.Pairwise (fun k l => k < l) ∧
            (∀ l, l ∈ (u.tree t).search.snapshot ↔ (u.slot t l).state ≠ .free ∧ (u.slot t l).state ≠ .quarantined) ∧
            (u.tree t).search.test = some x ∧ x.kind = .verify ∧ x.counted = 0 ∧ x.lit = 0 ∧
            x.group = { lo := 0, hi := (u.tree t).search.snapshot.length } ∧
            (∀ l ∈ (u.tree t).search.snapshot, (u.slot t l).muted = true ∨ (l, true) ∈ x.retry) ∧
            (x.observing = true ↔ x.retry = [] ∧ x.awaited = []) ∧
            (∀ v, v ≠ t → (u.tree v).search = (s.tree v).search))) ∧
    (s.ready h .abortSearch = true →
      let a := s.taken h ReqKind.abortSearch.byte
      (4 ≤ h.tree → exec (.abortSearch h) s = .next (a.answer h .abortSearch { code := .badValue })) ∧
      ∀ t : TreeId, h.tree = t.val →
        ((s.tree t).search.running = false →
          exec (.abortSearch h) s = .next (a.answer h .abortSearch { code := .conflict })) ∧
        ((s.tree t).search.running = true →
          let S := (s.tree t).search
          ∃ release : List Line, release.Pairwise (fun k l => k < l) ∧
            (∀ l, l ∈ release ↔ (s.slot t l).muted = true ∧ (s.slot t l).state ≠ .quarantined) ∧
            let last : LastSearch :=
              { outcome := .aborted, frame := (s.tree t).receiver.lastEnded, quarantined := S.quarantined, restarts := S.restarts }
            exec (.abortSearch h) s = .next (((a.modTree t (fun T =>
              { T with search := { T.search with running := false, stack := [], test := none, release := release, last := some last }
                       watch :=
                         { T.watch with
                           rogue := .suspect, current := {}, endedFirst := T.watch.endedFirst || T.watch.periodDue.isSome } })).raise
                .searchDone (some t) .none (.searchDone .aborted S.quarantined S.restarts)).answer h .abortSearch { code := .done }))) ∧
    (s.ready h .readSearch = true →
      let reply := fun (ans : Answer) =>
        exec (.readSearch h) s = .next ((s.taken h ReqKind.readSearch.byte).answer h .readSearch ans)
      (4 ≤ h.tree → reply { code := .badValue }) ∧
      ∀ t : TreeId, h.tree = t.val →
        let S := (s.tree t).search
        let view := fun (x : Test) =>
          ({ kind := x.kind, group := x.group, observing := x.observing, m := x.m, span := x.span, counted := x.counted
             lit := x.lit, retry := x.retry.length, awaited := x.awaited.length } : TestView)
        let contexts := (s.tree t).engine.contexts.toList.filterMap (fun c =>
          c.map (fun c => ({ phase := c.phase, attempts := c.attempts, line := c.line } : ContextView)))
        let v : SearchView :=
          { rogue := (s.tree t).watch.rogue, running := S.running, snapshot := S.snapshot, stack := S.stack
            test := S.test.map view
            restarts := S.restarts, quarantined := S.quarantined, release := S.release, pending := S.pending, last := S.last
            span := (s.tree t).settings.span
            contexts := contexts }
        reply { code := .done, values := .search v })

/-- SPAN_END, once an observed test has counted its span, which is lit with two dark-light frames or more. A lit VERIFY ends the search FOREIGN, a
dark one over nobody ends it DONE; a lit SINGLE whose member is testable begins the CONFIRM of that member; a lit CONFIRM restarts the search over a
new snapshot, or at the third restart ends it UNRESOLVED; a dark CONFIRM quarantines its member; and a test that leaves an empty stack ends the
search DONE.

A dark VERIFY, a SPLIT, a dark SINGLE, a dark CONFIRM once its member is quarantined, and a SINGLE or a CONFIRM whose member is no longer testable
take the next group of the stack they leave (R119): groups without a testable member are discarded; one testable member is tested alone; of more, a
lower half without a testable member is cleared without a test and the upper half taken in its place, until a lower half has one and the group is
split; and with none in any group the search ends DONE. An end that comes while a period's end is due is marked (R109; log entry 63). That a SINGLE
or a CONFIRM whose member is no longer testable decides nothing of it, and that at most 200 groups are taken in one event, a bound no lawful search
reaches, are the model's (log entry 31). -/
def Obligations.SpanEndsGiveTheirVerdict : Prop :=
  ∀ (s : State) (t : TreeId) (x : Test), s.inReset = false → (s.tree t).search.test = some x → x.observing = true →
    x.span ≤ x.counted →
    let S := (s.tree t).search
    let hears := exec (.spanEnd t) s
    let ended := fun (u : State) (o : SearchOutcome) (r : Rogue) =>
      (u.tree t).search.running = false ∧ (u.tree t).search.stack = [] ∧ (u.tree t).search.test = none ∧
      (u.tree t).search.last.map (fun e => e.outcome) = some o ∧ (u.tree t).watch.rogue = r ∧ (u.tree t).watch.current = {} ∧
      (u.tree t).watch.endedFirst = ((s.tree t).watch.endedFirst || (s.tree t).watch.periodDue.isSome) ∧
      ∀ l, l ∈ (u.tree t).search.release ↔ (u.slot t l).muted = true ∧ (u.slot t l).state ≠ .quarantined
    let testable := fun (g : Group) (p : Nat) => g.lo ≤ p ∧ p < g.hi ∧
      ∃ l, S.snapshot[p]? = some l ∧ (s.slot t l).state ≠ .free ∧ (s.slot t l).state ≠ .quarantined
    let member := fun (l : Line) => ∃ p, testable x.group p ∧ (∀ q, testable x.group q → q = p) ∧ S.snapshot[p]? = some l
    let half := fun (g : Group) => g.lo + (g.hi - g.lo) / 2
    let begins := fun (u : State) (k : TestKind) (g : Group) (rest : List Group) =>
      (u.tree t).search.running = S.running ∧ (u.tree t).search.stack = rest ∧ (u.tree t).search.snapshot = S.snapshot ∧
      ∃ y, (u.tree t).search.test = some y ∧ y.kind = k ∧ y.group = g ∧ y.counted = 0 ∧ y.lit = 0
    let upperOf := fun (g : Group) => ({ lo := half g, hi := g.hi } : Group)
    let takes := fun (u : State) (ok : Group → Nat → Prop) (stack : List Group) =>
      ((∀ g ∈ stack, ∀ p, ¬ ok g p) → ended u .done .clear) ∧
      ∀ empty g rest p, stack = empty ++ g :: rest → (∀ d ∈ empty, ∀ q, ¬ ok d q) → ok g p →
        ((∀ q, ok g q → q = p) → empty.length < 200 → begins u .single g rest) ∧
        ∀ q k, ok g q → p < q → (∀ r, ok g r → (upperOf^[k] g).lo ≤ r) → p < half (upperOf^[k] g) → empty.length + k < 200 →
          begins u .split (upperOf^[k] g) rest
    let goesOn := fun (stack : List Group) => ∃ u, hears = .next u ∧ takes u testable stack
    let lower : Group := { lo := x.group.lo, hi := half x.group }
    let upper : Group := upperOf x.group
    (x.kind = .verify → x.lit < 2 → x.group.lo < x.group.hi → goesOn [x.group]) ∧
    (x.kind = .split → 2 ≤ x.lit → goesOn (lower :: upper :: S.stack)) ∧
    (x.kind = .split → x.lit < 2 → goesOn (upper :: S.stack)) ∧
    (x.kind = .single → (x.lit < 2 ∨ ∀ p, ¬ testable x.group p) → goesOn S.stack) ∧
    (x.kind = .confirm → x.lit < 2 → (∀ p, ¬ testable x.group p) → goesOn S.stack) ∧
    (x.kind = .verify → 2 ≤ x.lit → ∃ u, hears = .next u ∧ ended u .foreign .foreign) ∧
    (x.kind = .verify → x.lit < 2 → x.group.hi ≤ x.group.lo → ∃ u, hears = .next u ∧ ended u .done .clear) ∧
    (x.kind = .single → x.lit < 2 → S.stack = [] → ∃ u, hears = .next u ∧ ended u .done .clear) ∧
    (∀ l, x.kind = .single → 2 ≤ x.lit → member l →
      ∃ u y, hears = .next u ∧ (u.tree t).search.test = some y ∧ y.kind = .confirm ∧ y.group = x.group ∧ y.counted = 0 ∧ y.lit = 0 ∧
        (u.tree t).search.stack = S.stack ∧ (u.tree t).search.snapshot = S.snapshot) ∧
    (x.kind = .confirm → 2 ≤ x.lit → 2 ≤ S.restarts → ∃ u, hears = .next u ∧ ended u .unresolved .unresolved) ∧
    (x.kind = .confirm → 2 ≤ x.lit → S.restarts < 2 →
      ∃ u y, hears = .next u ∧ (u.tree t).search.restarts = S.restarts + 1 ∧ (u.tree t).search.stack = [] ∧
        (∀ l, l ∈ (u.tree t).search.snapshot ↔ (u.slot t l).state ≠ .free ∧ (u.slot t l).state ≠ .quarantined) ∧
        (u.tree t).search.test = some y ∧ y.kind = .verify ∧ y.group = { lo := 0, hi := (u.tree t).search.snapshot.length }) ∧
    (∀ l, x.kind = .confirm → x.lit < 2 → member l →
      ∃ u, hears = .next u ∧ (u.slot t l).state = .quarantined ∧ (u.slot t l).cause = some .search ∧ (u.slot t l).muted = true ∧
        ((s.slot t l).state = .ranging →
          ∀ v use, LineMsg.delay l v use ∈ (u.tree t).framer.ordinary → use = .drift ∨ use = .abandoned) ∧
        (u.slot t l).account = (s.slot t l).account ∧ (u.slot t l).service = (s.slot t l).service ∧
        (u.tree t).search.quarantined = S.quarantined + 1 ∧
        takes u (fun g p => testable g p ∧ S.snapshot[p]? ≠ some l) S.stack)

/-- SEARCH_OFFER_RETRY and RELEASE_LIST_DRAIN, with room in the queue for all that waits, and with none. Each accepted MUTE or UNMUTE goes to the
end of the urgent entries, its line's flag takes the value offered, and the line leaves the list it waited on.

RELEASE_HOME: BAD_VALUE out of range, CONFLICT for a slot that is not QUARANTINED or while a search runs, ACCEPTED with nothing changed for a line
that is pending already; else ACCEPTED, and the release is tried at once: without a free context, or with the queue full, the line stays pending;
else its UNMUTE is queued, its flag cleared, the slot RANGING, and the line is not pending. When the release list is first offered is the model's
(log entry 30). -/
def Obligations.SearchMessagesDrainAndReleasesAreTried : Prop :=
  (∀ (s : State) (t : TreeId), s.inReset = false →
     let T := s.tree t
     (∀ x : Test, T.search.test = some x →
       (64 ≤ T.framer.count → x.retry ≠ [] → exec (.searchOfferRetry t) s = .next s) ∧
       (x.retry.Pairwise (fun p q => p.1 ≠ q.1) → x.retry ≠ [] → T.framer.count + x.retry.length ≤ 64 →
         ∃ u, exec (.searchOfferRetry t) s = .next u ∧
           (u.tree t).framer.urgent = T.framer.urgent ++
             x.retry.map (fun p => if p.2 then .mute p.1 (some x.step) else .unmute p.1 (some x.step)) ∧
           (u.tree t).framer.ordinary = T.framer.ordinary ∧
           (u.tree t).search = { T.search with test := some { x with retry := [], awaited := x.awaited ++ x.retry.map (fun p => p.1) } } ∧
           (∀ p ∈ x.retry, u.slot t p.1 = { s.slot t p.1 with muted := p.2 }) ∧
           ∀ l, (∀ p ∈ x.retry, p.1 ≠ l) → u.slot t l = s.slot t l)) ∧
     (T.search.running = false → T.search.release ≠ [] →
       (64 ≤ T.framer.count → exec (.releaseListDrain t) s = .next s) ∧
       (T.search.release.Nodup → T.framer.count + T.search.release.length ≤ 64 →
         ∃ u, exec (.releaseListDrain t) s = .next u ∧
           (u.tree t).framer = { T.framer with urgent := T.framer.urgent ++ T.search.release.map (fun l => .unmute l none) } ∧
           (u.tree t).search = { T.search with release := [] } ∧
           ∀ l, u.slot t l = if l ∈ T.search.release then { s.slot t l with muted := false } else s.slot t l))) ∧
  (∀ (s : State) (h : Head) (line : Nat), s.ready h .releaseHome = true →
     let a := s.taken h ReqKind.releaseHome.byte
     let reply := fun (u : State) (c : Code) => exec (.releaseHome h line) s = .next (u.answer h .releaseHome { code := c })
     ((4 ≤ h.tree ∨ 128 ≤ line) → reply a .badValue) ∧
     ∀ (t : TreeId) (l : Line), h.tree = t.val → line = l.val →
       let T := s.tree t
       (((s.slot t l).state ≠ .quarantined ∨ T.search.running = true) → reply a .conflict) ∧
       ((s.slot t l).state = .quarantined → T.search.running = false → l ∈ T.search.pending → reply a .accepted) ∧
       ((s.slot t l).state = .quarantined → T.search.running = false → l ∉ T.search.pending →
         (((∀ i : Fin 4, T.engine.contexts[i] ≠ none) ∨ 64 ≤ T.framer.count) →
           ∃ pending : List Line, (∀ k, k ∈ pending ↔ k = l ∨ k ∈ T.search.pending) ∧
             reply (a.modTree t (fun T => { T with search := { T.search with pending := pending } })) .accepted) ∧
         ((∃ i : Fin 4, T.engine.contexts[i] = none) → T.framer.count < 64 →
           ∃ u, reply u .accepted ∧ (u.slot t l).state = .ranging ∧ (u.slot t l).muted = false ∧ (u.slot t l).cause = none ∧
             (u.slot t l).account = (s.slot t l).account ∧ (u.slot t l).service = (s.slot t l).service ∧
             (u.tree t).framer = { T.framer with urgent := T.framer.urgent ++ [.unmute l none] } ∧
             l ∈ (u.tree t).planner.rangingList ∧ (∀ k, k ∈ (u.tree t).search.pending ↔ k ∈ T.search.pending) ∧
             ∀ k, k ≠ l → u.slot t k = s.slot t k)))

/-! ## The traffic buffers -/

/-- TRUNK_PACKET_ARRIVAL: a packet of a length outside 64..2,000 is malformed; a broadcast packet goes to its tree's broadcast queue, any other to
the home queue of a slot in ACTIVE, COOLDOWN, LOST or QUARANTINED, and is a no-home drop elsewhere. It joins the tail where the queue's 512 blocks
and the reserve with the shared region have room for it, and is else counted as dropped; an admission that takes the shared free count below 1,024
turns the pause ON and sends a request of 500 µs.

A fill, a freed slot and a tree restart judge the pause too: it turns OFF, with a request of duration 0, where the shared free count then is 2,048 or
more; and the request is sent again at each frame boundary while it is ON. -/
def Obligations.ArrivingPacketsAreAdmittedAndThePauseIsJudged : Prop :=
  (∀ (s : State) (t : TreeId) (l : Line) (p : Packet), s.inReset = false →
    let k := (p.length + 127) / 128
    let hold := (s.tree t).downHold
    let x := s.slot t l
    let fits := fun (held : Nat) => held + k ≤ 512 ∧ (hold + k - 2048) - (hold - 2048) ≤ s.sharedFree
    let traffic := fun (f : TreeTraffic → TreeTraffic) => s.modTree t (fun T => { T with traffic := f T.traffic })
    let good := 64 ≤ p.length ∧ p.length ≤ 2000
    let takes := x.state = .active ∨ x.state = .cooldown ∨ x.state = .lost ∨ x.state = .quarantined
    let admitted := fun (c : Instr) (u : State) =>
      u.sharedFree = s.sharedFree - ((hold + k - 2048) - (hold - 2048)) ∧
      (u.sharedFree < 1024 → s.trunk.pauseOn = false →
        exec c s = .next { u with
          trunk := { u.trunk with pauseOn := true, lastPause := some 500, pauseRequests := bump u.trunk.pauseRequests } }) ∧
      ((1024 ≤ u.sharedFree ∧ s.trunk.pauseOn = false ∨ u.sharedFree < 2048 ∧ s.trunk.pauseOn = true) → exec c s = .next u)
    (∀ broadcast, ¬ good → exec (.trunkPacketArrival t l broadcast p) s =
      .next { s with trunk := { s.trunk with malformed := bump s.trunk.malformed } }) ∧
    (good → fits (queueBlocks (s.tree t).traffic.broadcast) → s.poolLawful →
      admitted (.trunkPacketArrival t l true p) (traffic (fun y => { y with broadcast := y.broadcast ++ [p] }))) ∧
    (good → ¬ fits (queueBlocks (s.tree t).traffic.broadcast) → exec (.trunkPacketArrival t l true p) s =
      .next (traffic (fun y => { y with broadcastDrops := bump y.broadcastDrops }))) ∧
    (good → takes → fits (queueBlocks x.queue) → s.poolLawful →
      admitted (.trunkPacketArrival t l false p) (s.modSlot t l (fun y => { y with queue := y.queue ++ [p] }))) ∧
    (good → takes → ¬ fits (queueBlocks x.queue) → exec (.trunkPacketArrival t l false p) s =
      .next (s.modSlot t l (fun y => { y with tailDrops := bump y.tailDrops }))) ∧
    (good → ¬ takes → exec (.trunkPacketArrival t l false p) s =
      .next (traffic (fun y => { y with noHome := bump y.noHome })))) ∧
  ∀ (s : State) (t : TreeId), s.inReset = false →
    let judged := fun (k : Trunk) (free : Nat) =>
      if free < 1024 ∧ k.pauseOn = false then { k with pauseOn := true, lastPause := some 500, pauseRequests := bump k.pauseRequests }
      else if 2048 ≤ free ∧ k.pauseOn = true then { k with pauseOn := false, lastPause := some 0 }
      else k
    let again := fun (k : Trunk) => if k.pauseOn then { k with lastPause := some 500, pauseRequests := bump k.pauseRequests } else k
    let frees := fun (c : Instr) (k : Trunk) => ∃ u, exec c s = .next u ∧ u.trunk = judged k u.sharedFree
    -- a fill, and the frame boundary
    ((s.tree t).receiver.lists.length < 3 → (s.tree t).started = false → frees (.frameStart t) s.trunk) ∧
    ((s.tree t).receiver.lists.length < 3 → (∀ v, (s.tree v).started = true) → frees (.frameStart t) (again s.trunk)) ∧
    -- a slot that is freed, and a tree that is restarted
    (∀ (h : Head) (l : Line), h.tree = t.val → (s.slot t l).state ≠ .free → (s.tree t).framer.count < 64 →
      (s.ready h .dismissHome = true → frees (.dismissHome h l.val) s.trunk) ∧
      (s.ready h .expelHome = true → frees (.expelHome h l.val) s.trunk)) ∧
    (∀ h : Head, h.tree = t.val → s.ready h .restartTree = true → (s.trunk.pauseOn = true ∨ 1024 ≤ s.sharedFree) →
      frees (.restartTree h) s.trunk)

/-- The fill of a data area (R137 to R139). The broadcast phase takes the head packets within 30,000 bytes and the capacity. A turn places head
packets while they fit its deficit, a throttled home's allowance and the capacity, and ends as R138 gives: on to the next candidate, its deficit cut
to 1,999 where the allowance ended it and 0 where its queue emptied, or as the end of the fill. The rotation gives each candidate in order from its
start its quantum and its turn; where a fill ends it, the pointer stands on the home with its turn open, and where no candidate is left after the
last home that had a turn. An open turn is resumed without a quantum by a candidate, and else the rotation starts at the next line. -/
def Obligations.FillsFollowTheRotation : Prop :=
  let bytes := fun (ps : List Packet) => (ps.map List.length).sum
  let space := fun (ps : List Packet) => (ps.map (fun p => p.length + 4)).sum
  let candidate := fun (T : TreeState) (th : List Line) (l : Line) =>
    ((T.slot l).state = .active ∨ (T.slot l).state = .cooldown ∨ (T.slot l).state = .quarantined) ∧
      ∃ p rest, (T.slot l).queue = p :: rest ∧ (l ∉ th ∨ p.length ≤ (T.slot l).allowance)
  let turn := fun (T : TreeState) (th : List Line) (l : Line) (quantum capacity : Nat) =>
    runTurn (decide (l ∈ th)) ((T.slot l).deficit + quantum) (T.slot l).allowance capacity (T.slot l).queue
  let after := fun (T : TreeState) (l : Line) (r : Turn) =>
    T.modSlot l (fun x => { x with queue := r.queue, deficit := r.deficit, allowance := r.allowance })
  let sent := fun (l : Line) (r : Turn) => r.placed.map (fun p => (l, p))
  let stands := fun (T : TreeState) (pointer : Line) (mark : Bool) =>
    ({ T with traffic := { T.traffic with rotation := pointer, openTurn := mark } } : TreeState)
  (∀ (throttled : Bool) (deficit allowance capacity : Nat) (queue : List Packet),
    let r := runTurn throttled deficit allowance capacity queue
    let used := bytes r.placed
    queue = r.placed ++ r.queue ∧ used ≤ deficit ∧ (throttled = true → used ≤ allowance) ∧ space r.placed ≤ capacity ∧
    r.capacity = capacity - space r.placed ∧ r.allowance = (if throttled then allowance - used else allowance) ∧
    (r.queue = [] → r.deficit = 0 ∧ r.ending = .goOn) ∧
    ∀ p rest, r.queue = p :: rest →
      (deficit - used < p.length → r.deficit = deficit - used ∧ r.ending = .goOn) ∧
      (p.length ≤ deficit - used → throttled = true → allowance - used < p.length →
        r.deficit = min (deficit - used) 1999 ∧ r.ending = .goOn) ∧
      (p.length ≤ deficit - used → (throttled = true → p.length ≤ allowance - used) →
        r.capacity < p.length + 4 ∧ r.deficit = deficit - used ∧ r.ending = .fillEnds)) ∧
  (∀ (T : TreeState) (th : List Line) (fuel : Nat) (start : Line) (had : Option Line) (capacity : Nat),
    let behind := fun (l : Line) => (l.val + 128 - start.val) % 128
    ((∀ l, ¬ candidate T th l) →
      T.rotate th fuel start had capacity =
        (stands T (match had with | some l => l + 1 | none => T.traffic.rotation) false, [])) ∧
    ∀ l, candidate T th l → (∀ k, candidate T th k → behind l ≤ behind k) →
      let r := turn T th l (match (T.slot l).service with | some x => x.live.dw * 1518 | none => 0) capacity
      let next := (after T l r).rotate th fuel (l + 1) (some l) r.capacity
      (r.ending = .fillEnds → T.rotate th (fuel + 1) start had capacity = (stands (after T l r) l true, sent l r)) ∧
      (r.ending = .goOn → T.rotate th (fuel + 1) start had capacity = (next.1, sent l r ++ next.2))) ∧
  ∀ (T : TreeState) (capacity : Nat), ∃ (th : List Line) (A : TreeState) (out left : List Packet),
    (∀ l, l ∈ th ↔ ∃ o, (T.slot l).account = .opened o ∧ o.quotaState = .throttled) ∧
    A = { T with slots := A.slots, traffic := { T.traffic with broadcast := left } } ∧
    (∀ l, let x := T.slot l
      let tr := match x.service with | some r => r.live.tr | none => 0
      A.slot l = { x with allowance := if l ∈ th then min (x.allowance + tr) (max tr 2000) else 0 }) ∧
    T.traffic.broadcast = out ++ left ∧ bytes out ≤ 30000 ∧ space out ≤ capacity ∧
    (∀ p rest, left = p :: rest → 30000 < bytes out + p.length ∨ capacity < space out + (p.length + 4)) ∧
    let room := capacity - space out
    let q := T.traffic.rotation
    let fills := fun (r : TreeState × List (Line × Packet)) =>
      T.fill capacity = (r.1, out.map (fun p => (none, p)) ++ r.2.map (fun x => (some x.1, x.2)))
    (T.traffic.openTurn = false → fills (A.rotate th 10000 q none room)) ∧
    (T.traffic.openTurn = true → ¬ candidate A th q → fills (A.rotate th 10000 (q + 1) none room)) ∧
    (T.traffic.openTurn = true → candidate A th q →
      let r := turn A th q 0 room
      let next := (after A q r).rotate th 10000 (q + 1) (some q) r.capacity
      (r.ending = .fillEnds → fills (after A q r, sent q r)) ∧ (r.ending = .goOn → fills (next.1, sent q r ++ next.2)))

/-- The trunk transmitter. TRUNK_TRANSMIT_COMPLETE removes the packet sent; TRUNK_PAUSE_REQUEST holds the transmitter, and with duration 0 ends the
hold; TRUNK_HOLD_END ends it. When it is then IDLE and not held, it takes the head packet of the first tree from its pointer on, wrapping, whose
uplink queue is not empty, and the pointer moves to the tree after.

READ_BUFFERS for tree 15, for one tree and for a home; tree 15 with a line, and a value out of range, are refused BAD_VALUE. -/
def Obligations.TheTrunkServesTheTreesAndBuffersAreRead : Prop :=
  (∀ (s : State), s.inReset = false →
     let behind := fun (u : State) (t : TreeId) => (t.val + 4 - u.trunk.pointer.val) % 4
     let takes := fun (c : Instr) (u : State) =>
       ((u.trunk.sending.isSome = true ∨ u.trunk.held.isSome = true ∨ ∀ t, (u.tree t).traffic.uplink = []) → exec c s = .next u) ∧
       (∀ t, u.trunk.sending = none → u.trunk.held = none → (u.tree t).traffic.uplink ≠ [] →
         (∀ v, behind u v < behind u t → (u.tree v).traffic.uplink = []) →
         exec c s = .next { u with trunk := { u.trunk with sending := some t, pointer := t + 1 } })
     let held := fun (h : Option Nat) => ({ s with trunk := { s.trunk with held := h } } : State)
     (∀ t, s.trunk.sending = some t →
       takes .trunkTransmitComplete (({ s with trunk := { s.trunk with sending := none } }).modTree t
         (fun T => { T with traffic := { T.traffic with uplink := T.traffic.uplink.tail } }))) ∧
     (∀ d, 0 < d → exec (.trunkPauseRequest d) s = .next (held (some d))) ∧
     takes (.trunkPauseRequest 0) (held none) ∧
     (s.trunk.held.isSome = true → takes .trunkHoldEnd (held none))) ∧
  (∀ (s : State) (h : Head) (line : Option Nat), s.ready h .readBuffers = true →
     let reply := fun (ans : Answer) =>
       exec (.readBuffers h line) s = .next ((s.taken h ReqKind.readBuffers.byte).answer h .readBuffers ans)
     let item := fun (t : TreeId) =>
       let x := (s.tree t).traffic
       ({ tree := t, downHold := (s.tree t).downHold, upHold := (s.tree t).upHold, broadcastBlocks := queueBlocks x.broadcast
          broadcastPackets := x.broadcast.length, uplinkBlocks := queueBlocks (x.uplink.map (fun p => p.2))
          uplinkPackets := x.uplink.length, noHome := x.noHome, broadcastDrops := x.broadcastDrops, flushed := x.flushed
          uplinkDrops := x.uplinkDrops } : BufferTree)
     let view := fun (ts : List TreeId) (scope : BufferScope) =>
       ({ downFree := ts.map (fun t => 2048 - min (s.tree t).downHold 2048), upFree := ts.map (fun t => 1024 - (s.tree t).upHold)
          sharedFree := s.sharedFree, scope := scope, trees := ts.map item } : BuffersView)
     let done := fun (v : BuffersView) => reply { code := .done, values := .buffers v }
     let oneTree := fun (t : TreeId) (home : Option BufferHome) =>
       done (view [t] (.tree s.trunk.pauseOn s.trunk.held.isSome s.trunk.pointer s.trunk.malformed s.trunk.pauseRequests
         (s.tree t).traffic.rotation (s.tree t).traffic.openTurn
         (allLines.filter (fun l => decide ((s.slot t l).queue ≠ []))).length home))
     (h.tree = 15 → line = none →
       done (view [0, 1, 2, 3]
         (.part s.trunk.pauseOn s.trunk.held.isSome s.trunk.pointer s.trunk.malformed s.trunk.pauseRequests))) ∧
     ((h.tree = 15 ∧ line ≠ none ∨ 4 ≤ h.tree ∧ h.tree ≠ 15 ∨ ∃ n, line = some n ∧ 128 ≤ n) → reply { code := .badValue }) ∧
     ∀ t : TreeId, h.tree = t.val →
       (line = none → oneTree t none) ∧
       ∀ l : Line, line = some l.val →
         oneTree t (some { blocks := queueBlocks (s.slot t l).queue, packets := (s.slot t l).queue.length
                           deficit := (s.slot t l).deficit, allowance := (s.slot t l).allowance
                           tailDrops := (s.slot t l).tailDrops }))

/-- Every step keeps the law of the buffer pool, under which the free blocks and the blocks held by all queues add up to 32,768. -/
def Obligations.EveryStepKeepsTheBufferPoolLaw : Prop :=
  (∀ (s u : State), s.poolLawful → step s = .next u → u.poolLawful) ∧
  (∀ s : State, s.poolLawful →
    (allTrees.map (fun t => 2048 - min (s.tree t).downHold 2048)).sum + (allTrees.map (fun t => 1024 - (s.tree t).upHold)).sum +
      s.sharedFree + (allTrees.map (fun t => (s.tree t).downHold + (s.tree t).upHold)).sum = 32768)

/-! ## The usage meter -/

/-- SET_CLOCK, READ_CLOCK, SET_TARIFF and READ_TARIFF. Day and second, and each change point, are clamped, CLAMPED naming the first; a tariff whose
seconds do not ascend is refused BAD_VALUE; a change that changes the band in force closes every open account. The band is 0 while the clock is
unset or the schedule empty, else that of the last change point at or before the clock's second, and before the first point that of the last. How
the field positions of a tariff are counted is the model's (log entry 24). -/
def Obligations.ClockAndTariffGiveTheBand : Prop :=
  ∀ (s : State) (h : Head),
    let reband := fun (u : State) => if u.band = s.band then u else (u.closeTrees allTrees).1
    let meter := fun (k : ReqKind) (f : Meter → Meter) => ({ s.taken h k.byte with meter := f s.meter } : State)
    ((s.meter.clock = none ∨ s.meter.schedule = []) → s.band = 0) ∧
    (∀ c before p after, s.meter.clock = some c → s.meter.schedule = before ++ [p] ++ after → p.second ≤ c.second →
      (∀ q ∈ after, c.second < q.second) → s.band = p.band) ∧
    (∀ c before p, s.meter.clock = some c → s.meter.schedule = before ++ [p] → (∀ q ∈ s.meter.schedule, c.second < q.second) →
      s.band = p.band) ∧
    (s.ready h .setClock = true → ∀ day second,
      exec (.setClock h day second) s =
        .next ((reband (meter .setClock (fun m =>
          { m with clock := some { day := min day 65535, second := min second 86399 } }))).answer h .setClock
          { code := if 65535 < day ∨ 86399 < second then .clamped else .done
            field := if 65535 < day then some 1 else if 86399 < second then some 2 else none })) ∧
    (s.ready h .readClock = true →
      exec (.readClock h) s = .next ((s.taken h ReqKind.readClock.byte).answer h .readClock
        { code := .done, values := .clock s.meter.clock s.band s.time.lastSecond })) ∧
    (s.ready h .setTariff = true → ∀ points : List ChangePoint, points.length ≤ 8 →
      let clamped := points.map (fun p => ({ second := min p.second 86399, band := min p.band 7 } : ChangePoint))
      let off := fun (n : Nat) => ∃ p, points[n / 2]? = some p ∧ (if n % 2 = 0 then 86399 < p.second else 7 < p.band)
      let set := fun (ans : Answer) => exec (.setTariff h points) s =
        .next ((reband (meter .setTariff (fun m => { m with schedule := clamped }))).answer h .setTariff ans)
      let rises := clamped.Pairwise (fun p q => p.second < q.second)
      (¬ rises → exec (.setTariff h points) s =
        .next ((s.taken h ReqKind.setTariff.byte).answer h .setTariff { code := .badValue })) ∧
      (rises → (∀ n, ¬ off n) → set { code := .done }) ∧
      (∀ n, rises → off n → (∀ m, m < n → ¬ off m) → set { code := .clamped, field := some (n + 1) })) ∧
    (s.ready h .readTariff = true →
      exec (.readTariff h) s = .next ((s.taken h ReqKind.readTariff.byte).answer h .readTariff
        { code := .done, values := .tariff s.meter.schedule s.band s.meter.clock }))

/-- SET_QUOTA and RESET_PERIOD. With a line, SET_QUOTA sets the quota and the warn level of an open account and judges it afresh, raising the
notices of R161 before the reply (log entry 23); without one it sets the defaults of the trees named. RESET_PERIOD sets the period bytes to 0 and
the quota state to NORMAL. A line without an open account is refused CONFLICT. How the field positions are counted, and what a SET_QUOTA with
neither value does, are the model's (log entries 24 and 61). -/
def Obligations.QuotasAreSetAndReset : Prop :=
  ∀ (s : State) (h : Head),
    let quotaOf := fun (v : Option Nat) (old : Nat) => match v with | some n => min n 281474976710655 | none => old
    let warnOf := fun (v : Option Nat) (old : Nat) => match v with | some n => max 1 (min n 7) | none => old
    let quotaOff := fun (v : Option Nat) => v.any (fun n => decide (281474976710655 < n))
    let warnOff := fun (v : Option Nat) => v.any (fun n => decide (n < 1 ∨ 7 < n))
    let done := fun (quota warn : Option Nat) =>
      ({ code := if quotaOff quota || warnOff warn then .clamped else .done
         field := if quotaOff quota then some 2 else if warnOff warn then some 3 else none } : Answer)
    (s.ready h .setQuota = true → ∀ (quota warn : Option Nat),
      let a := s.taken h ReqKind.setQuota.byte
      ((∀ line, (4 ≤ h.tree ∨ 128 ≤ line) →
          exec (.setQuota h (some line) quota warn) s = .next (a.answer h .setQuota { code := .badValue })) ∧
        (4 ≤ h.tree → h.tree ≠ 15 →
          exec (.setQuota h none quota warn) s = .next (a.answer h .setQuota { code := .badValue }))) ∧
      ((h.tree < 4 ∨ h.tree = 15) →
        ∃ u : State, exec (.setQuota h none quota warn) s = .next (u.answer h .setQuota (done quota warn)) ∧
          u = { a with trees := u.trees } ∧
          ∀ t : TreeId,
            let c := (s.tree t).settings
            ((h.tree = 15 ∨ h.tree = t.val) → u.tree t = { s.tree t with
              settings := { c with quota := quotaOf quota c.quota, warn := warnOf warn c.warn } }) ∧
            (h.tree ≠ 15 → h.tree ≠ t.val → u.tree t = s.tree t)) ∧
      ∀ (t : TreeId) (l : Line), h.tree = t.val →
        ((∀ o, (s.slot t l).account ≠ .opened o) →
          exec (.setQuota h (some l.val) quota warn) s = .next (a.answer h .setQuota { code := .conflict })) ∧
        ∀ o, (s.slot t l).account = .opened o →
          let q := quotaOf quota o.quota
          let w := warnOf warn o.warn
          let becomes := fun (st : QuotaState) (notices : List NoticeKind) =>
            exec (.setQuota h (some l.val) quota warn) s = .next ((notices.foldl
              (fun u k => u.raise k (some t) (.line l) (.serial o.serial))
              (a.setAccount t l (.opened { o with
                quota := q, warn := w, quotaState := st
                throttled := o.throttled || decide (st = .throttled ∧ o.quotaState ≠ .throttled) }))).answer h .setQuota
              (done quota warn))
          (q = 0 → becomes .normal []) ∧
          (0 < q → q ≤ o.period → becomes .throttled (if o.quotaState = .throttled then [] else [.quotaReached])) ∧
          (0 < q → o.period < q → w * q / 8 ≤ o.period →
            becomes .warned (if o.quotaState = .normal then [.quotaWarning] else [])) ∧
          (0 < q → o.period < q → o.period < w * q / 8 → becomes .normal [])) ∧
    (s.ready h .resetPeriod = true →
      let a := s.taken h ReqKind.resetPeriod.byte
      let reset := fun (x : Slot) => match x.account with
        | .opened o => { x with account := .opened { o with period := 0, quotaState := .normal } }
        | _ => x
      ((∀ line, (4 ≤ h.tree ∨ 128 ≤ line) →
          exec (.resetPeriod h (some line)) s = .next (a.answer h .resetPeriod { code := .badValue })) ∧
        (4 ≤ h.tree → h.tree ≠ 15 →
          exec (.resetPeriod h none) s = .next (a.answer h .resetPeriod { code := .badValue }))) ∧
      ((h.tree < 4 ∨ h.tree = 15) →
        let named := allTrees.filter (fun t => decide (h.tree = 15 ∨ h.tree = t.val))
        ∃ u : State, exec (.resetPeriod h none) s = .next (u.answer h .resetPeriod
            { code := .done
              values := .count (named.map (fun t => (allLines.filter (fun l => (s.slot t l).accountOpen)).length)).sum }) ∧
          u = { a with trees := u.trees } ∧
          ∀ t, u.tree t = { s.tree t with slots := (u.tree t).slots } ∧
            ∀ l, u.slot t l = if t ∈ named then reset (s.slot t l) else s.slot t l) ∧
      ∀ (t : TreeId) (l : Line), h.tree = t.val →
        ((s.slot t l).accountOpen = false →
          exec (.resetPeriod h (some l.val)) s = .next (a.answer h .resetPeriod { code := .conflict })) ∧
        ((s.slot t l).accountOpen = true →
          exec (.resetPeriod h (some l.val)) s =
            .next ((a.modSlot t l reset).answer h .resetPeriod { code := .done, values := .count 1 })))

/-- CLOSE_ALL closes every open account of the trees named as an INTERVAL record, tree ascending and then line ascending, where the close queue has
room for them: each record is queued with its counts, and the next interval opens with the carries. The accounts that find the queue full are merged
instead. The reply counts the accounts closed and merged. READ_USAGE gives an account position, or for tree 15 the part's summary; that a
tree 0..3 without a line is refused BAD_VALUE, that a place in the due list counts from 0, and that a MARK at the head counts neither among the queued
records nor as waiting, are the model's (log entries 26 and 60). -/
def Obligations.ClosesAndUsageReads : Prop :=
  ∀ (s : State) (h : Head),
    (s.ready h .closeAll = true →
      let a := s.taken h ReqKind.closeAll.byte
      (4 ≤ h.tree → h.tree ≠ 15 → exec (.closeAll h) s = .next (a.answer h .closeAll { code := .badValue })) ∧
      ((h.tree < 4 ∨ h.tree = 15) →
        let named := allTrees.filter (fun t => decide (h.tree = 15 ∨ h.tree = t.val))
        let opens := (named.flatMap (fun t => allLines.map (fun l => (t, l)))).filter (fun p => (s.slot p.1 p.2).accountOpen)
        let unset := s.meter.clock.isNone
        let recordFor := fun (p : TreeId × Line) (o : Account) =>
          ({ tree := p.1, line := p.2, kind := .interval, band := o.band, clockUnset := o.clockUnset || unset, merged := o.merged
             throttled := o.throttled, moved := false, serial := o.serial, start := if o.clockUnset || unset then 0 else o.start
             stop := if o.clockUnset || unset then 0 else stampOf s.meter.clock, counts := o.counts } : Record)
        let room := 1024 - s.meter.queue.length
        let closes := opens.take room
        let records := closes.filterMap (fun p => match (s.slot p.1 p.2).account with
          | .opened o => some (recordFor p o)
          | _ => none)
        ∃ u : State,
          exec (.closeAll h) s = .next (u.answer h .closeAll { code := .done, values := .closes closes.length (opens.length - room) }) ∧
          u.links = a.links ∧
          u.meter = { s.meter with
            queue := s.meter.queue ++ records
            intervalCloses := closes.foldl (fun n _ => bump n) s.meter.intervalCloses
            mergedCloses := (opens.drop room).foldl (fun n _ => bump n) s.meter.mergedCloses } ∧
          ∀ t l,
            (∀ o, (s.slot t l).account = .opened o → (t, l) ∈ closes →
              let next : Account :=
                { o with counts := o.carries, carries := {}, start := (recordFor (t, l) o).stop, band := s.band
                         merged := false, throttled := decide (o.quotaState = .throttled), clockUnset := unset }
              u.slot t l = { s.slot t l with account := .opened next }) ∧
            (∀ o, (s.slot t l).account = .opened o → t ∈ named → (t, l) ∉ closes →
              u.slot t l = { s.slot t l with account := .opened { o with merged := true } }) ∧
            (((s.slot t l).accountOpen = false ∨ t ∉ named) → u.slot t l = s.slot t l))) ∧
    (s.ready h .readUsage = true →
      let reply := fun (line : Option Nat) (ans : Answer) =>
        exec (.readUsage h line) s = .next ((s.taken h ReqKind.readUsage.byte).answer h .readUsage ans)
      (h.tree = 15 →
        let summary : UsageSummary :=
          { queued := s.meter.queue.length, markWaits := s.meter.mark.isSome, dueLength := s.meter.due.length
            clock := s.meter.clock, band := s.band, intervalCloses := s.meter.intervalCloses
            mergedCloses := s.meter.mergedCloses, dueCloses := s.meter.dueCloses }
        reply none { code := .done, values := .usageSummary summary }) ∧
      (h.tree ≠ 15 → reply none { code := .badValue }) ∧
      (∀ line, (4 ≤ h.tree ∨ 128 ≤ line) → reply (some line) { code := .badValue }) ∧
      ∀ (t : TreeId) (l : Line), h.tree = t.val →
        ((s.slot t l).account = .empty → reply (some l.val) { code := .done, values := .usage .empty }) ∧
        (∀ o, (s.slot t l).account = .opened o →
          reply (some l.val) { code := .done, values := .usage (.opened o (o.warn * o.quota / 8)) }) ∧
        (∀ r r2, (s.slot t l).account = .due r r2 →
          reply (some l.val) { code := .done, values := .usage (.due r r2 (s.meter.due.idxOf (t, l))) }))

/-- A packet of a home with an open account that the uplink queue takes is billed to it: the upstream count and the period bytes rise by its length
and the quota is judged; one the queue has no room for is dropped, counted and not billed. A count that would pass its maximum closes the interval
first; with the close queue full, what the count cannot take goes into the carry, and later billings follow it there. -/
def Obligations.UpstreamPacketsAreBilled : Prop :=
  ∀ (s : State) (t : TreeId) (l : Line) (p : Packet) (o : Account), (s.slot t l).account = .opened o →
    let blocks := (s.tree t).upHold + (p.length + 127) / 128
    let u := s.admitUplink t l p
    let top := 281474976710655
    let queued := (u.tree t).traffic.uplink = (s.tree t).traffic.uplink ++ [(l, p)]
    let period := min (o.period + p.length) top
    (1024 < blocks →
      u = s.modTree t (fun T => { T with traffic := { T.traffic with uplinkDrops := bump T.traffic.uplinkDrops } })) ∧
    (blocks ≤ 1024 → queued ∧ (∀ k, k ≠ l → u.slot t k = s.slot t k) ∧ (∀ v, v ≠ t → u.tree v = s.tree v)) ∧
    (blocks ≤ 1024 → o.carries = {} → o.counts.up + p.length ≤ top →
      let a : Account := { o with counts := { o.counts with up := o.counts.up + p.length }, period := period }
      u.meter = s.meter ∧
      (o.quota = 0 → (u.slot t l).account = .opened a ∧ u.links = s.links) ∧
      (0 < o.quota → period < o.quota → (o.quotaState ≠ .normal ∨ period < o.warn * o.quota / 8) →
        (u.slot t l).account = .opened a ∧ u.links = s.links) ∧
      (0 < o.quota → period < o.quota → o.quotaState = .normal → o.warn * o.quota / 8 ≤ period →
        (u.slot t l).account = .opened { a with quotaState := .warned } ∧
        u.links = (s.raise .quotaWarning (some t) (.line l) (.serial o.serial)).links) ∧
      (0 < o.quota → o.quota ≤ period → o.quotaState = .throttled → (u.slot t l).account = .opened a ∧ u.links = s.links) ∧
      (0 < o.quota → o.quota ≤ period → o.quotaState = .normal →
        (u.slot t l).account = .opened { a with quotaState := .throttled, throttled := true } ∧
        u.links = ((s.raise .quotaWarning (some t) (.line l) (.serial o.serial)).raise .quotaReached (some t) (.line l)
          (.serial o.serial)).links) ∧
      (0 < o.quota → o.quota ≤ period → o.quotaState = .warned →
        (u.slot t l).account = .opened { a with quotaState := .throttled, throttled := true } ∧
        u.links = (s.raise .quotaReached (some t) (.line l) (.serial o.serial)).links)) ∧
    (blocks ≤ 1024 → o.carries = {} → o.quota = 0 → top < o.counts.up + p.length → s.meter.queue.length < 1024 → p.length ≤ top →
      ∃ b r, (u.slot t l).account = .opened b ∧ b.counts = { up := p.length, down := 0, outage := 0 } ∧ b.carries = {} ∧
        u.meter.queue = s.meter.queue ++ [r] ∧ r.kind = .interval ∧ r.counts = o.counts ∧ r.serial = o.serial) ∧
    (blocks ≤ 1024 → o.carries = {} → o.quota = 0 → o.counts.up ≤ top → top < o.counts.up + p.length → 1024 ≤ s.meter.queue.length →
      p.length ≤ top →
      ∃ b, (u.slot t l).account = .opened b ∧ b.counts = { o.counts with up := top } ∧
        b.carries = { up := o.counts.up + p.length - top, down := 0, outage := 0 } ∧ b.merged = true ∧
        u.meter.queue = s.meter.queue) ∧
    (blocks ≤ 1024 → 0 < o.carries.up → o.quota = 0 → 1024 ≤ s.meter.queue.length →
      ∃ b, (u.slot t l).account = .opened b ∧ b.counts = o.counts ∧ b.merged = true ∧
        b.carries = { o.carries with up := min (o.carries.up + p.length) top })

/-! ## The billing journal -/

/-- PROGRAM_START. A program starts when the operation is IDLE, the close queue has a record at its head and a slot is available to it: the write
position in READY, and in FULL only for the retry of a failed record or for a MARK that would make a FULL sector eligible for erase. It starts at once
while no erase is under way or within a suspension; an erase step under way is asked to suspend while its batch has suspended fewer than 64 times;
otherwise the program waits. A waiting MARK that is programmed leaves the MARK position. -/
def Obligations.ProgramsStartOrSuspendTheErase : Prop :=
  ∀ (s : State) (r : Record) (k : Fin 32), s.inReset = false → s.journal.program = none → s.meter.head = some r →
    s.journal.writeSector = some k → s.journal.next < 4294967295 →
    let j := s.journal
    let m := s.meter
    let retry := m.headMark ≠ none ∨ m.headHeld = true
    let frees := ∃ i, j.stateOf i = .full ∧ ∀ q ∈ j.validSeqs i, q ≤ r.counts.up ∨ q ≤ j.exportMark
    let slotFor := j.condition = .ready ∨ j.condition = .full ∧ (retry ∨ r.kind = .mark ∧ frees)
    let holds : Meter :=
      if m.headMark.isSome || m.headHeld then m
      else if m.mark.isSome then { m with mark := none, headMark := m.mark }
      else { m with headHeld := true }
    let program : Program := { record := r, seq := j.next, sector := k, slot := j.writePos }
    (slotFor → (j.batch.state = .none ∨ j.batch.state = .gathering ∨ j.batch.state = .suspended) →
      exec .programStart s = .next { s with meter := holds, journal := { j with program := some program } }) ∧
    (slotFor → j.batch.state = .erasing → j.batch.current ≠ none → j.batch.suspends < 64 →
      exec .programStart s = .next { s with
        journal := { j with batch := { j.batch with state := .suspending, suspends := j.batch.suspends + 1 }
                            suspends := bump j.suspends } }) ∧
    (slotFor → j.batch.state = .erasing → (j.batch.current = none ∨ 64 ≤ j.batch.suspends) → exec .programStart s = .next s) ∧
    (slotFor → j.batch.state = .suspending → exec .programStart s = .next s) ∧
    (¬ slotFor → exec .programStart s = .next s)

/-- PROGRAM_VERIFY. The slot is WRITTEN with the record and its number, and no other slot changes; the highest written number is the record's, the
next number and the programmed count rise by 1; the record leaves the close queue, a due record taking its place; a verified MARK makes its mark the
export mark and every FULL sector of records at or below it ERASE_PENDING; and the write position moves to the next ERASED slot of the sector. An
event for another slot, or while no program is under way, ends no program: the verify of a program whose timeout has been taken leaves a whole copy of
its record in its BAD slot (R164; log entry 70), and any other is discarded.

A write sector that fills by a verified record other than a MARK: with its retire-on-fill mark it becomes RETIRED with its marker set; else it
becomes ERASE_PENDING when every valid record it holds stands at or below the export mark, and FULL when one does not. The first ERASED sector after
it in ring order is IN_USE and the write sector, at slot 0; with none ERASED there is no write sector, and the write position 0 is the model's (log
entry 69).

The journal's condition after it is that of R172, with JOURNAL_FULL raised when it becomes FULL or STOPPED, after the SECTOR_RETIRED of a sector that
retires as it fills (R171). That a READY journal whose reserve no record can use becomes STOPPED at once is the model's (log entry 67). -/
def Obligations.VerifiedProgramsAreWrittenInRingOrder : Prop :=
  (∀ (s : State) (sector : Fin 32) (slot : Fin 512), s.inReset = false →
     ((∀ p, s.journal.program = some p → ¬ (p.sector = sector ∧ p.slot = slot.val)) →
       let here := slotKey sector slot.val
       let its := fun (p : Program) => p.sector = sector ∧ p.slot = slot.val
       exec (.programTimeout sector slot) s = .next s ∧
       ((∀ p ∈ s.journal.late, ¬ its p) → exec (.programVerify sector slot) s = .next s) ∧
       ((∀ c, storeGet s.journal.array here = some c → c.state ≠ .bad) → exec (.programVerify sector slot) s = .next s) ∧
       ∀ before p after left, s.journal.late = before ++ p :: after → (∀ q ∈ before, ¬ its q) → its p →
         storeGet s.journal.array here = some { state := .bad, contents := left } →
         ∃ u, exec (.programVerify sector slot) s = .next u ∧
           u = { s with journal := { s.journal with array := u.journal.array, late := u.journal.late } } ∧
           (∀ key, storeGet u.journal.array key =
             if key = here then some { state := .bad, contents := .whole p.seq p.record } else storeGet s.journal.array key) ∧
           ∀ q, q ∈ u.journal.late ↔ q ∈ s.journal.late ∧ ¬ its q) ∧
     ∀ p, s.journal.program = some p → p.sector = sector → p.slot = slot.val →
       let here := slotKey sector slot.val
       let mark := p.record.counts.up
       ∃ u, exec (.programVerify sector slot) s = .next u ∧
         (∀ key, storeGet u.journal.array key =
           if key = here then some { state := .written, contents := .whole p.seq p.record } else storeGet s.journal.array key) ∧
         u.journal.highest = p.seq ∧ u.journal.next = s.journal.next + 1 ∧ u.journal.programmed = bump s.journal.programmed ∧
         u.journal.failures = s.journal.failures ∧
         (s.meter.headMark ≠ none → u.meter.queue = s.meter.queue) ∧
         (s.meter.headMark = none → s.meter.due = [] → u.meter.queue = s.meter.queue.tail) ∧
         (∀ t l rest r second, s.meter.headMark = none → s.meter.due = (t, l) :: rest → (s.slot t l).account = .due r second →
           u.meter.queue = s.meter.queue.tail ++ [r] ∧
           u.meter.due = (if second = none then rest else s.meter.due) ∧
           (u.slot t l).account = (match second with | none => .empty | some r2 => .due r2 none)) ∧
         (p.record.kind ≠ .mark → u.journal.exportMark = s.journal.exportMark) ∧
         (p.record.kind = .mark → u.journal.exportMark = mark) ∧
         (p.record.kind = .mark → (s.journal.batch.state = .none → s.journal.batch.current = none) →
           ∀ k, k ≠ sector → s.journal.stateOf k = .full →
             ((∀ q ∈ s.journal.validSeqs k, q ≤ mark) → u.journal.stateOf k = .erasePending) ∧
             ((∃ q ∈ s.journal.validSeqs k, mark < q) → u.journal.stateOf k = .full)) ∧
         (∀ i, slot.val < i → i < 512 → storeGet s.journal.array (slotKey sector i) = none →
           (∀ n, slot.val < n → n < i → storeGet s.journal.array (slotKey sector n) ≠ none) →
           u.journal.writePos = i ∧ u.journal.writeSector = s.journal.writeSector) ∧
         ((s.journal.condition = .ready ∨ s.journal.condition = .full) →
           s.conditionRuled (if s.programRetires p then s.raise .sectorRetired none .none (.sectorRetired sector .fill) else s)
             (s.meter.headMark.isSome && s.meter.headHeld) u)) ∧
  (∀ (s : State) (sector : Fin 32) (slot : Fin 512) (p : Program), s.inReset = false → s.journal.program = some p →
     p.sector = sector → p.slot = slot.val → p.record.kind ≠ .mark → s.journal.batch.current ≠ some sector →
     (∀ i, slot.val < i → i < 512 → storeGet s.journal.array (slotKey sector i) ≠ none) →
     storeGet s.journal.array (slotKey sector slot.val) = none →
     let behind := fun (k : Fin 32) => (k.val + 32 - sector.val) % 32
     let low := p.seq ≤ s.journal.exportMark ∧ ∀ q ∈ s.journal.validSeqs sector, q ≤ s.journal.exportMark
     ∃ u, exec (.programVerify sector slot) s = .next u ∧
       ((s.journal.sectors[sector]).retireOnFill = true →
         u.journal.stateOf sector = .retired ∧ (u.journal.sectors[sector]).marker = true) ∧
       ((s.journal.sectors[sector]).retireOnFill = false → low → u.journal.stateOf sector = .erasePending) ∧
       ((s.journal.sectors[sector]).retireOnFill = false → ¬ low → u.journal.stateOf sector = .full) ∧
       (∀ k, k ≠ sector → s.journal.stateOf k = .erased →
         (∀ i, i ≠ sector → behind i < behind k → s.journal.stateOf i ≠ .erased) →
         u.journal.writeSector = some k ∧ u.journal.writePos = 0 ∧ u.journal.stateOf k = .inUse) ∧
       ((∀ k, k ≠ sector → s.journal.stateOf k ≠ .erased) → u.journal.writeSector = none))

/-- PROGRAM_TIMEOUT. The slot is BAD and no other slot changes, the sector's bad count and the failures rise by 1, the sector is marked for retirement
at 8, the numbers stand, and the record stays in the close queue. While no erase is under way and the sector has another ERASED slot, the retry of the
same record with the same number starts there in the same event. What the slot holds is a free value (log entry 1), until the program's verify comes
late (log entry 70). The condition after it is that of R172, with the notices of R171 and R172; in a reserve the record is a retry, so the journal is
FULL there. -/
def Obligations.FailedProgramsAreRetried : Prop :=
  ∀ (s : State) (sector : Fin 32) (slot : Fin 512) (p : Program), s.inReset = false → s.journal.program = some p →
    p.sector = sector → p.slot = slot.val →
    let here := slotKey sector slot.val
    let x := s.journal.sectors[sector]
    ∃ u, exec (.programTimeout sector slot) s = .next u ∧
      (∃ left, storeGet u.journal.array here = some { state := .bad, contents := left }) ∧
      (∀ key, key ≠ here → storeGet u.journal.array key = storeGet s.journal.array key) ∧
      (u.journal.sectors[sector]).bad = x.bad + 1 ∧
      (u.journal.sectors[sector]).retireOnFill = (x.retireOnFill || decide (8 ≤ x.bad + 1)) ∧
      u.journal.failures = bump s.journal.failures ∧ u.journal.programmed = s.journal.programmed ∧
      u.journal.next = s.journal.next ∧ u.journal.highest = s.journal.highest ∧ u.journal.exportMark = s.journal.exportMark ∧
      u.meter.queue = s.meter.queue ∧ p ∈ u.journal.late ∧
      ((s.journal.condition = .ready ∨ s.journal.condition = .full) →
        let marked := { s with journal := s.journal.modSector sector (fun x => { x with retireOnFill := x.retireOnFill || decide (8 ≤ x.bad + 1) }) }
        s.conditionRuled (if marked.programRetires p then s.raise .sectorRetired none .none (.sectorRetired sector .fill) else s)
          (s.meter.headMark.isSome || s.meter.headHeld) u) ∧
      (∀ i, slot.val < i → i < 512 → storeGet s.journal.array (slotKey sector i) = none →
        (∀ n, slot.val < n → n < i → storeGet s.journal.array (slotKey sector n) ≠ none) →
        u.journal.writePos = i ∧
        (s.journal.writeSector = some sector → (s.journal.condition = .ready ∨ s.journal.condition = .full) →
          s.journal.next < 4294967295 → (s.journal.batch.state = .none ∨ s.journal.batch.state = .gathering) →
          (s.meter.headMark = some p.record ∨
            s.meter.headMark = none ∧ s.meter.headHeld = true ∧ s.meter.queue.head? = some p.record) →
          u.journal.program = some { record := p.record, seq := s.journal.next, sector := sector, slot := i }))

/-- The erase batch. ACCEPT_WINDOW_END begins the first erase step, or leaves it waiting for a running program. ERASE_COMPLETE leaves the sector with
no slot but ERASED ones, its items cleared, and the sector ERASED, or IN_USE when a FULL journal had no write sector; a FULL journal is READY again.
ERASE_TIMEOUT retires the sector with SECTOR_RETIRED raised, its slots judged afresh (what the erase left of them is a free value, log entry 2), and
the condition is that of R172. After either the next step
begins, or the batch ends. SUSPEND_EVENT lets the waiting program start within the suspension. An event that finds
nothing it concerns is discarded, and a suspension in which no program waits returns to ERASING (log entry 5). -/
def Obligations.EraseStepsAndSuspensions : Prop :=
  ∀ (s : State), s.inReset = false →
    let j := s.journal
    let b := j.batch
    let withBatch := fun (b : Batch) => ({ s with journal := { j with batch := b } } : State)
    let goesOn := fun (k : Fin 32) (u : State) =>
      s.meter.head = none → b.state = .erasing →
        (∀ n rest, b.todo = n :: rest →
          u.journal.batch = { state := .erasing, list := b.list, todo := rest, current := some n, suspends := b.suspends }) ∧
        (b.todo = [] → (∀ i, i ≠ k → j.stateOf i ≠ .erasePending) →
          u.journal.batch = { state := .none, list := [], todo := [], current := none, suspends := b.suspends })
    -- the accept window
    (b.state ≠ .gathering → exec .acceptWindowEnd s = .next s) ∧
    (b.state = .gathering → j.program ≠ none →
      exec .acceptWindowEnd s = .next (withBatch { b with state := .erasing, suspends := 0 })) ∧
    (∀ k rest, b.state = .gathering → j.program = none → s.meter.head = none → b.todo = k :: rest →
      exec .acceptWindowEnd s =
        .next (withBatch { state := .erasing, list := b.list, todo := rest, current := some k, suspends := 0 })) ∧
    -- the end of an erase step
    (∀ k, b.current ≠ some k → exec (.eraseComplete k) s = .next s ∧ exec (.eraseTimeout k) s = .next s) ∧
    (∀ k, b.current = some k → (b.state = .erasing ∨ b.state = .suspending) →
      ∃ u, exec (.eraseComplete k) s = .next u ∧
        (∀ key, storeGet u.journal.array key = if keySector key = k.val then none else storeGet j.array key) ∧
        u.journal.sectors[k] =
          { state := if j.condition = .full ∧ j.writeSector = none then .inUse else .erased
            bad := 0, retireOnFill := false, marker := false } ∧
        (∀ i, i ≠ k → u.journal.sectors[i] = j.sectors[i]) ∧
        u.journal.erased = bump j.erased ∧ u.journal.exportMark = j.exportMark ∧ u.journal.highest = j.highest ∧
        (j.condition = .full → j.next < 4294967295 → u.journal.condition = .ready ∧
          (j.writeSector = none → u.journal.writeSector = some k ∧ u.journal.writePos = 0) ∧
          (j.writeSector ≠ none → u.journal.writeSector = j.writeSector ∧ u.journal.writePos = j.writePos)) ∧
        goesOn k u ∧
        (∀ r w, b.state = .suspending → j.condition = .ready → j.program = none → s.meter.head = some r →
          j.writeSector = some w → j.next < 4294967295 →
          u.journal.program = some { record := r, seq := j.next, sector := w, slot := j.writePos })) ∧
    (∀ k, b.current = some k → b.state = .erasing → s.storesWf = true →
      ∃ u, exec (.eraseTimeout k) s = .next u ∧
        (∀ key, keySector key ≠ k.val → storeGet u.journal.array key = storeGet j.array key) ∧
        (∀ key c, keySector key = k.val → storeGet u.journal.array key = some c →
          c.state ≠ .bad ∧ (c.state = .written → ∃ before, storeGet j.array key = some before ∧ c.contents = before.contents)) ∧
        u.journal.stateOf k = .retired ∧ (u.journal.sectors[k]).marker = true ∧
        (∀ i, i ≠ k → u.journal.sectors[i] = j.sectors[i]) ∧
        u.journal.eraseFails = bump j.eraseFails ∧ u.journal.exportMark = j.exportMark ∧ goesOn k u ∧
        ((j.condition = .ready ∨ j.condition = .full) →
          s.conditionRuled (s.raise .sectorRetired none .none (.sectorRetired k .erase)) (s.meter.headMark.isSome || s.meter.headHeld) u)) ∧
    -- the suspension
    (b.state ≠ .suspending → exec .suspendEvent s = .next s) ∧
    (b.state = .suspending → j.program = none → s.meter.head = none → exec .suspendEvent s = .next (withBatch { b with state := .erasing })) ∧
    (∀ r w, b.state = .suspending → j.condition = .ready → j.program = none → s.meter.head = some r → j.writeSector = some w →
      j.next < 4294967295 →
      ∃ u, exec .suspendEvent s = .next u ∧ u.journal.batch = { b with state := .suspended } ∧
        u.journal.program = some { record := r, seq := j.next, sector := w, slot := j.writePos })

/-- SCAN_COMPLETE, the eleven steps of R182. Every slot is judged from its contents; the numbers, the marks and both read cursors follow from the
valid records found; sectors with a retirement marker are RETIRED. The write sector is that of the newest record, at the first ERASED slot after it;
without such a slot the first ERASED sector after it in ring order; and without any record the first sector whose slots are all ERASED. Every other
sector is ERASED, FULL or ERASE_PENDING, its bad count is its number of TORN slots, and 8 of them mark it for retirement. The condition is that of
R172. PART_READY stands at the head of the notices, JOURNAL_FULL second when the condition is FULL or STOPPED. Outside SCANNING the event is
discarded (log entry 5), and a RETIRED sector is never chosen (log entry 35). -/
def Obligations.TheScanRebuildsTheJournal : Prop :=
  ∀ (s : State), s.inReset = false →
    (s.journal.condition ≠ .scanning → exec .scanComplete s = .next s) ∧
    (s.journal.condition = .scanning → s.journal.batch.current = none → s.storesWf = true →
      ∃ u, exec .scanComplete s = .next u ∧ u.pending = s.pending ∧ u.trees = s.trees ∧ u.directory = s.directory ∧
        u.meter = s.meter ∧
        let j := u.journal
        let found := fun (seq : Nat) (r : Record) => ∃ key, storeGet j.array key = some { state := .written, contents := .whole seq r }
        let newest := fun (p : Record → Prop) (seq : Nat) (r : Record) =>
          found seq r ∧ p r ∧ ∀ q x, found q x → p x → q ≤ seq
        (∀ key,
          (storeGet s.journal.array key = none → storeGet j.array key = none) ∧
          ∀ c, storeGet s.journal.array key = some c →
            (c.contents = .blank → storeGet j.array key = none) ∧
            (c.contents = .damaged → storeGet j.array key = some { state := .torn, contents := .damaged }) ∧
            ∀ seq r, c.contents = .whole seq r →
              let earlier := ∃ k, k < key ∧ ∃ b x, storeGet s.journal.array k = some b ∧ b.contents = .whole seq x
              (earlier → storeGet j.array key = some { state := .torn, contents := .whole seq r }) ∧
              (¬ earlier → storeGet j.array key = some { state := .written, contents := .whole seq r })) ∧
        j.next = j.highest + 1 ∧ j.requested = j.exportMark ∧
        (∀ seq r, newest (fun _ => True) seq r → j.highest = seq) ∧
        ((∀ seq r, ¬ found seq r) → j.highest = 0) ∧
        (∀ seq r, newest (fun r => r.kind = .mark) seq r → j.exportMark = r.counts.up) ∧
        ((∀ seq r, found seq r → r.kind ≠ .mark) → j.exportMark = 0) ∧
        (∀ k, (s.journal.sectors[k]).marker = true → j.stateOf k = .retired) ∧
        (∀ k, (s.journal.sectors[k]).marker = false → j.stateOf k ≠ .retired) ∧
        (∀ k, j.writeSector = some k → j.stateOf k = .inUse ∧ storeGet j.array (slotKey k j.writePos) = none) ∧
        let retired := fun (k : Fin 32) => (s.journal.sectors[k]).marker = true
        let blank := fun (k : Fin 32) => ∀ key, keySector key = k.val → storeGet j.array key = none
        let writes := fun (k : Option (Fin 32)) (slot : Nat) => j.writeSector = k ∧ j.writePos = slot
        -- steps 5 and 8: the write sector
        (∀ (k : Fin 32) (slot seq : Nat) (r : Record), newest (fun _ => True) seq r → slot < 512 →
          storeGet j.array (slotKey k slot) = some { state := .written, contents := .whole seq r } →
          let free := fun (i : Nat) => slot < i ∧ i < 512 ∧ storeGet j.array (slotKey k i) = none
          let behind := fun (i : Fin 32) => (i.val + 32 - k.val) % 32
          (∀ i, ¬ retired k → free i → (∀ n, free n → i ≤ n) → writes (some k) i) ∧
          ((retired k ∨ ∀ i, ¬ free i) →
            (∀ i, ¬ retired i → blank i → (∀ n, ¬ retired n → blank n → behind i ≤ behind n) → writes (some i) 0) ∧
            ((∀ i, ¬ retired i → ¬ blank i) → j.writeSector = none))) ∧
        ((∀ seq r, ¬ found seq r) →
          (∀ k, ¬ retired k → blank k → (∀ n, n < k → retired n ∨ ¬ blank n) → writes (some k) 0) ∧
          ((∀ k, retired k ∨ ¬ blank k) → j.writeSector = none)) ∧
        -- steps 6 and 7: the other sectors and the bad counts
        (∀ k, ¬ retired k → j.writeSector ≠ some k →
          (blank k → j.stateOf k = .erased) ∧ (¬ blank k → j.stateOf k = .full ∨ j.stateOf k = .erasePending)) ∧
        (∀ k : Fin 32,
          (j.sectors[k]).bad = ((List.range 512).filter (fun i =>
            (storeGet j.array (slotKey k i)).any (fun c => decide (c.state = .torn)))).length ∧
          (j.sectors[k]).retireOnFill = decide (8 ≤ (j.sectors[k]).bad)) ∧
        -- step 11: the condition
        j.condition = (if 4294967295 ≤ j.next then .stopped
          else match j.writeSector with
            | none => if ∃ k, j.stateOf k = .erasePending then .full else .stopped
            | some _ =>
              if (∃ k, j.stateOf k = .erased) ∨ 8 < j.erasedLeft then .ready
              else if ∃ k, j.stateOf k = .full ∨ j.stateOf k = .erasePending then .full else .stopped) ∧
        (∀ k, j.stateOf k = .erased → j.allErased k = true) ∧
        (∀ k, j.stateOf k = .erasePending → ∀ q ∈ j.validSeqs k, q ≤ j.exportMark) ∧
        (∀ k, j.stateOf k = .full → ∃ q ∈ j.validSeqs k, j.exportMark < q) ∧
        (s.journal.batch.state = .none → (j.batch.state = .gathering ↔ ∃ k, j.stateOf k = .erasePending)) ∧
        (s.journal.batch.state = .none → (∃ k, j.stateOf k = .erasePending) →
          j.batch.list = (List.finRange 32).filter (fun k => decide (j.stateOf k = .erasePending)) ∧ j.batch.todo = j.batch.list) ∧
        (u.link .controller).journalCursor = j.exportMark + 1 ∧ (u.link .craft).journalCursor = j.exportMark + 1 ∧
        let ready : Notice :=
          { kind := .partReady, tree := none, line := .none, count := 1, details := .partReady j.condition j.highest j.exportMark }
        let full : List Notice := match j.condition with
          | .full => [{ kind := .journalFull, tree := none, line := .none, count := 1, details := .journalFull .noSector }]
          | .stopped => [{ kind := .journalFull, tree := none, line := .none, count := 1, details := .journalFull .stopped }]
          | .ready => []
          | .scanning => []
        (s.links.controller.sending ≠ none → u.links.notices = ready :: (full ++ s.links.notices)) ∧
        (s.links.controller.sending = none → s.links.controller.replies = [] →
          u.links.controller.sending = some (.notice ready) ∧ u.links.notices = full ++ s.links.notices))

/-- READ_JOURNAL, SEEK_JOURNAL, EXPORT_DONE and READ_JOURNAL_STATE. All are answered BUSY while the journal is SCANNING. A read returns the valid
records at or above its link's cursor, ascending, up to 8 on the controller link and 2 on the craft link, and moves the cursor past the last; a seek
moves it to the first valid record at or above the number named, or past the highest number; EXPORT_DONE clamps its number to the highest written,
and one above the requested mark becomes it and stands in the MARK position as a MARK record. The reserve of READ_JOURNAL_STATE is stated for a
journal that has a write sector with no ERASED slot before the write position. -/
def Obligations.JournalRequestsAnswer : Prop :=
  ∀ (s : State) (h : Head),
    let j := s.journal
    let at_ := fun (k : ReqKind) => s.taken h k.byte
    let cursor := (s.link h.link).journalCursor
    let valid := fun (seq : Nat) (r : Record) => ∃ key, (key, seq, r) ∈ j.validCells
    let moved := fun (a : State) (c : Nat) => a.modLink h.link (fun x => { x with journalCursor := c })
    (s.ready h .readJournal = true →
      (j.condition = .scanning →
        exec (.readJournal h) s = .next ((at_ .readJournal).answer h .readJournal { code := .busy })) ∧
      (j.condition ≠ .scanning → ∃ (rs : List (Nat × Record)) (c : Nat),
        exec (.readJournal h) s =
          .next ((moved (at_ .readJournal) c).answer h .readJournal { code := .done, values := .journal rs c }) ∧
        let limit := if h.link = .controller then 8 else 2
        rs.length ≤ limit ∧ rs.Pairwise (fun x y => x.1 < y.1) ∧ (∀ x ∈ rs, cursor ≤ x.1 ∧ valid x.1 x.2) ∧
        (∀ seq r, valid seq r → cursor ≤ seq →
          (∃ x ∈ rs, x.1 = seq) ∨ (rs.length = limit ∧ ∀ x ∈ rs, x.1 < seq)) ∧
        (rs = [] → c = cursor) ∧ ∀ x, rs.getLast? = some x → c = x.1 + 1)) ∧
    (s.ready h .seekJournal = true → ∀ seq,
      (j.condition = .scanning →
        exec (.seekJournal h seq) s = .next ((at_ .seekJournal).answer h .seekJournal { code := .busy })) ∧
      (j.condition ≠ .scanning →
        let from_ := max 1 (min seq 4294967295)
        let goes := fun (c : Nat) (stands : Bool) =>
          exec (.seekJournal h seq) s = .next ((moved (at_ .seekJournal) c).answer h .seekJournal
            { code := if seq < 1 ∨ 4294967295 < seq then .clamped else .done
              field := if seq < 1 ∨ 4294967295 < seq then some 1 else none, values := .seek c stands })
        (∀ q r, valid q r → from_ ≤ q → (∀ x y, valid x y → from_ ≤ x → q ≤ x) → goes q true) ∧
        ((∀ q r, valid q r → q < from_) → goes (j.highest + 1) false))) ∧
    (s.ready h .exportDone = true → ∀ seq,
      (j.condition = .scanning →
        exec (.exportDone h seq) s = .next ((at_ .exportDone).answer h .exportDone { code := .busy })) ∧
      (j.condition ≠ .scanning →
        let value := min seq j.highest
        let ans := fun (n : Nat) => ({ code := if j.highest < seq then .clamped else .done
                                       field := if j.highest < seq then some 1 else none, values := .mark n } : Answer)
        let stamp := match s.meter.clock with | some c => c.day * 86400 + c.second | none => 0
        let mark : Record :=
          { tree := 0, line := 0, kind := .mark, band := 0, clockUnset := s.meter.clock.isNone, merged := false
            throttled := false, moved := false, serial := 0, start := stamp, stop := stamp
            counts := { up := value, down := 0, outage := 0 } }
        (value ≤ j.requested →
          exec (.exportDone h seq) s = .next ((at_ .exportDone).answer h .exportDone (ans j.requested))) ∧
        (j.requested < value →
          let a := at_ .exportDone
          exec (.exportDone h seq) s = .next (State.answer
            { a with journal := { j with requested := value }, meter := { s.meter with mark := some mark } }
            h .exportDone (ans value))))) ∧
    (s.ready h .readJournalState = true →
      (j.condition = .scanning →
        exec (.readJournalState h) s = .next ((at_ .readJournalState).answer h .readJournalState { code := .busy })) ∧
      (j.condition ≠ .scanning → ∃ v : JournalView,
        exec (.readJournalState h) s =
          .next ((at_ .readJournalState).answer h .readJournalState { code := .done, values := .journalState v }) ∧
        v.condition = j.condition ∧ v.cause = j.cause ∧ v.writeSector = j.writeSector ∧ v.writePos = j.writePos ∧
        v.next = j.next ∧ v.highest = j.highest ∧ v.exportMark = j.exportMark ∧ v.requested = j.requested ∧
        v.program = j.program.map (fun p => (p.seq, p.sector, p.slot)) ∧ v.batch = j.batch.state ∧ v.list = j.batch.list ∧
        v.current = j.batch.current ∧ v.suspendCount = j.batch.suspends ∧ v.cursor = cursor ∧
        v.programmed = j.programmed ∧ v.failures = j.failures ∧ v.erased = j.erased ∧ v.eraseFails = j.eraseFails ∧
        v.suspends = j.suspends ∧
        ((∃ k, j.stateOf k = .erased) → v.reserve = none) ∧
        (∀ w, (∀ k, j.stateOf k ≠ .erased) → j.writeSector = some w →
          (∀ i, i < j.writePos → storeGet j.array (slotKey w i) ≠ none) →
          v.reserve = some (min 8 ((List.range 512).filter (fun i => (storeGet j.array (slotKey w i)).isNone)).length)) ∧
        v.sectors.length = 32 ∧
        ∀ k : Fin 32, ∃ x, v.sectors[k.val]? = some x ∧ x.state = j.stateOf k ∧ x.valid = (j.validSeqs k).length ∧
          x.bad = (j.sectors[k]).bad ∧ x.retireOnFill = (j.sectors[k]).retireOnFill ∧
          (j.validSeqs k = [] → x.lowest = none ∧ x.highest = none) ∧
          ∀ q ∈ j.validSeqs k, ∃ lo hi, x.lowest = some lo ∧ x.highest = some hi ∧ lo ≤ q ∧ q ≤ hi ∧
            lo ∈ j.validSeqs k ∧ hi ∈ j.validSeqs k))

/-- No journal sector that is waiting for erase or being erased holds a record above the export mark, whatever step is taken: with the invariant that
carries it, every step keeps it, and an erase completes only for a sector whose records stand at or below the export mark. -/
def Obligations.EveryStepKeepsTheEraseLaw : Prop :=
  (∀ (s u : State), s.eraseLawful → step s = .next u → u.eraseLawful) ∧
  (∀ (s : State) (k : Fin 32) (key seq : Nat) (r : Record), s.eraseLawful → s.journal.condition ≠ .scanning →
    s.journal.batch.current = some k → keySector key = k.val →
    storeGet s.journal.array key = some { state := .written, contents := .whole seq r } → seq ≤ s.journal.exportMark)

/-! ## The tree -/

/-- SET_TREE and READ_TREE. Every check is made on every tree named before anything is written: the fall threshold that results stays below the rise
threshold (BAD_VALUE), and the ERT changes only on a tree with every slot FREE and no window record (CONFLICT). Then every setting named is written,
clamped, on every tree named, CLAMPED naming the first clamped field; a SCHEDULED window of a tree whose discovery is now off is skipped. -/
def Obligations.TreeSettingsAreSetAndRead : Prop :=
  ∀ (s : State) (h : Head),
    (s.ready h .setTree = true → ∀ f : TreeFields,
      let a := s.taken h ReqKind.setTree.byte
      let num := fun (lo hi old : Nat) (v : Option Nat) => match v with | some n => max lo (min n hi) | none => old
      let off := fun (lo hi : Nat) (v : Option Nat) => ∃ n, v = some n ∧ (n < lo ∨ hi < n)
      let next := fun (c : Settings) =>
        { c with
          mode := f.mode.getD c.mode, discovery := f.discovery.getD c.discovery, di := num 16 4000 c.di f.di
          hold := num 10 3600 c.hold f.hold, reach := num 0 40 c.reach f.reach, ert := num 3000 30000 c.ert f.ert
          overhead := num 8 64 c.overhead f.overhead, statusInterval := num 1 64 c.statusInterval f.statusInterval
          rise := num 1 64 c.rise f.rise, fall := num 0 63 c.fall f.fall, autoSearch := f.autoSearch.getD c.autoSearch
          span := num 4 64 c.span f.span }
      let named := fun (t : TreeId) => h.tree = 15 ∨ h.tree = t.val
      let breaks := ∃ t, named t ∧ (next (s.tree t).settings).rise ≤ (next (s.tree t).settings).fall
      let conflicts := ∃ t, named t ∧ (next (s.tree t).settings).ert ≠ (s.tree t).settings.ert ∧
        ((∃ l, (s.slot t l).state ≠ .free) ∨ (s.tree t).engine.window ≠ none)
      let clamped := fun (n : Nat) =>
        n = 3 ∧ off 16 4000 f.di ∨ n = 4 ∧ off 10 3600 f.hold ∨ n = 5 ∧ off 0 40 f.reach ∨ n = 6 ∧ off 3000 30000 f.ert ∨
        n = 7 ∧ off 8 64 f.overhead ∨ n = 8 ∧ off 1 64 f.statusInterval ∨ n = 9 ∧ off 1 64 f.rise ∨ n = 10 ∧ off 0 63 f.fall ∨
        n = 12 ∧ off 4 64 f.span
      let sets := fun (ans : Answer) => ∃ u : State, exec (.setTree h f) s = .next (u.answer h .setTree ans) ∧
        u = { a with trees := u.trees } ∧
        ∀ t : TreeId,
          let T := s.tree t
          let skips := (∃ w, T.engine.window = some w ∧ w.opened = false) ∧ (next T.settings).discovery = false
          (named t → ¬ skips → u.tree t = { T with settings := next T.settings }) ∧
          (named t → skips → u.tree t = { T with
            settings := next T.settings
            framer := T.framer.keep (fun m => !m.isCall)
            engine := { T.engine with counter := 0, window := none, refusedCall := none, skipped := bump T.engine.skipped }
            planner := { T.planner with quiet := none } }) ∧
          (¬ named t → u.tree t = T)
      (4 ≤ h.tree → h.tree ≠ 15 → exec (.setTree h f) s = .next (a.answer h .setTree { code := .badValue })) ∧
      ((h.tree < 4 ∨ h.tree = 15) →
        (breaks → exec (.setTree h f) s = .next (a.answer h .setTree { code := .badValue })) ∧
        (¬ breaks → conflicts → exec (.setTree h f) s = .next (a.answer h .setTree { code := .conflict })) ∧
        (¬ breaks → ¬ conflicts →
          ((∀ n, ¬ clamped n) → sets { code := .done }) ∧
          ∀ n, clamped n → (∀ m, m < n → ¬ clamped m) → sets { code := .clamped, field := some n }))) ∧
    (s.ready h .readTree = true →
      let reply := fun (ans : Answer) =>
        exec (.readTree h) s = .next ((s.taken h ReqKind.readTree.byte).answer h .readTree ans)
      (4 ≤ h.tree → reply { code := .badValue }) ∧
      ∀ t : TreeId, h.tree = t.val → ∃ v : TreeView, reply { code := .done, values := .tree v } ∧
        let T := s.tree t
        v.settings = T.settings ∧ v.window = T.engine.window ∧ v.opened = T.engine.opened ∧ v.skipped = T.engine.skipped ∧
        v.taken = T.engine.taken ∧ v.collisions = T.engine.collisions ∧ v.deferred = T.engine.deferred ∧
        v.contexts = T.engine.busy.map (fun c => { phase := c.phase, attempts := c.attempts, line := c.line }) ∧
        v.rotation = T.planner.rotation ∧ v.hold = T.planner.hold ∧ v.quiet = T.planner.quiet ∧
        v.remainder = T.planner.remainder ∧ v.rangings = T.planner.rangingList.length ∧
        v.verifies = T.planner.verifyList.length ∧ v.summary = T.planner.summary ∧ v.arrived = T.receiver.arrived ∧
        v.missed = T.receiver.missed ∧ v.bad = T.receiver.bad ∧ v.overruns = T.receiver.overruns ∧ v.stale = T.receiver.stale ∧
        v.darkFrames = T.receiver.darkFrames ∧ v.rogue = T.watch.rogue ∧ v.first = T.watch.first ∧
        v.current = T.watch.current ∧ v.last = T.watch.last ∧ v.lastFirst = T.watch.lastFirst)

/-- RESTART_TREE. The queue of the tree holds one DISMISS_ALL; its search is abandoned and its state reset; every slot not FREE is freed: its entry
returns to EXPECTED or is removed (R39), and its open account closes as TREE_RESTART, with a second record for its carries, into the close queue
while it has room and else into the due list, in ascending order of line, an order that is the model's (log entry 53). Engine, planner, receiver,
watch and traffic buffer take their values after a tree restart; the settings, the receiver's lists, a packet the trunk is sending, the other trees,
the timebase and the journal are kept. The watch's first frame is the count of the frame that starts next on the tree (log entry 4), and the summary
of its empty plan shows frame number 0 (log entry 57). -/
def Obligations.ARestartEmptiesItsTreeAlone : Prop :=
  ∀ (s : State) (h : Head), s.ready h .restartTree = true →
    let a := s.taken h ReqKind.restartTree.byte
    (4 ≤ h.tree → exec (.restartTree h) s = .next (a.answer h .restartTree { code := .badValue })) ∧
    ∀ t : TreeId, h.tree = t.val →
      ∃ u : State, exec (.restartTree h) s = .next (u.answer h .restartTree { code := .done }) ∧
        u.links = a.links ∧ u.time = s.time ∧ u.journal = s.journal ∧ u.pending = s.pending ∧ u.meter.clock = s.meter.clock ∧
        u.meter.schedule = s.meter.schedule ∧ u.meter.mark = s.meter.mark ∧ u.trunk.pointer = s.trunk.pointer ∧
        u.trunk.held = s.trunk.held ∧ u.trunk.sending = s.trunk.sending ∧ u.trunk.malformed = s.trunk.malformed ∧
        (∀ v, v ≠ t → u.tree v = s.tree v) ∧
        -- the accounts
        (let closes := fun (l : Line) => match (s.slot t l).account with
           | .opened o =>
             let r := recordOf o t l .treeRestart false s.meter.clock
             if (s.slot t l).state = .free then [] else if o.carries = {} then [r] else [r, { r with counts := o.carries }]
           | _ => []
         let room := 1024 - s.meter.queue.length
         let before := fun (l : Line) => ((allLines.filter (fun k => decide (k < l))).flatMap closes).length
         let waits := fun (l : Line) => (closes l).drop (room - before l)
         let due := allLines.filter (fun l => decide (waits l ≠ []))
         u.meter = { s.meter with
           queue := s.meter.queue ++ (allLines.flatMap closes).take room, due := s.meter.due ++ due.map (fun l => (t, l))
           dueCloses := due.foldl (fun n _ => bump n) s.meter.dueCloses } ∧
         ∀ l, (s.slot t l).state ≠ .free →
           ((s.slot t l).accountOpen = false → (u.slot t l).account = (s.slot t l).account) ∧
           ((s.slot t l).accountOpen = true → (u.slot t l).account = match waits l with
             | [] => .empty
             | [r] => .due r none
             | r :: r2 :: _ => .due r (some r2))) ∧
        -- the directory
        (∀ p e, storeGet s.directory p = some e →
          let freed := ∃ l, (s.slot t l).state ≠ .free ∧ (s.slot t l).link = some p
          (freed → ∀ v k o pin age, e.body = .present v k o pin age →
            (∀ b, o = .listed b → storeGet u.directory p = some { e with body := .expected b pin }) ∧
            (o = .opened → storeGet u.directory p = none)) ∧
          (¬ freed → storeGet u.directory p = some e)) ∧
        (∀ p, storeGet s.directory p = none → storeGet u.directory p = none) ∧
        (∀ l, ((s.slot t l).state = .free → u.slot t l = s.slot t l) ∧
          ((s.slot t l).state ≠ .free → u.slot t l = { Slot.free with account := (u.slot t l).account } ∧
            (u.slot t l).accountOpen = false)) ∧
        let T := u.tree t
        T.settings = (s.tree t).settings ∧ T.framer.urgent = [.dismissAll] ∧ T.framer.ordinary = [] ∧
        T.search.running = false ∧ T.search.snapshot = [] ∧ T.search.stack = [] ∧ T.search.test = none ∧ T.search.restarts = 0 ∧
        T.search.quarantined = 0 ∧ T.search.release = [] ∧ T.search.pending = [] ∧ T.search.last = none ∧
        T.engine = Engine.reset ∧ T.planner = Planner.reset ∧
        T.receiver.lists = (s.tree t).receiver.lists ∧ T.receiver.muteWaits = [] ∧ T.receiver.arrived = 0 ∧
        T.receiver.missed = 0 ∧ T.receiver.bad = 0 ∧ T.receiver.overruns = 0 ∧ T.receiver.stale = 0 ∧
        T.receiver.darkFrames = 0 ∧
        T.watch.rogue = .clear ∧ T.watch.current = {} ∧ T.watch.last = {} ∧
        T.watch.first = (if (s.tree t).started then s.time.count + 1 else s.time.count) ∧
        T.traffic.broadcast = [] ∧ T.traffic.rotation = 0 ∧ T.traffic.openTurn = false ∧ T.traffic.noHome = 0 ∧
        T.traffic.broadcastDrops = 0 ∧ T.traffic.flushed = 0 ∧ T.traffic.uplinkDrops = 0 ∧
        T.traffic.uplink = (if s.trunk.sending = some t then (s.tree t).traffic.uplink.take 1 else [])
end

