-- ==== Sys2Proof/Laws/State.lean ====
section
/-! SUPPORT. What the updates of the state leave alone, field by field, and what reading a tree, a slot or a link after one gives. -/

namespace Sys2Proof.Machine

/-! ## The queue of waiting commands -/

@[simp] theorem State.withPending_pending (s : State) (p : List Instr) : (s.withPending p).pending = p := rfl
@[simp] theorem State.withPending_inReset (s : State) (p : List Instr) : (s.withPending p).inReset = s.inReset := rfl
@[simp] theorem State.withPending_resetDue (s : State) (p : List Instr) : (s.withPending p).resetDue = s.resetDue := rfl
@[simp] theorem State.withPending_freeCount (s : State) (p : List Instr) : (s.withPending p).freeCount = s.freeCount := rfl
@[simp] theorem State.withPending_time (s : State) (p : List Instr) : (s.withPending p).time = s.time := rfl
@[simp] theorem State.withPending_trees (s : State) (p : List Instr) : (s.withPending p).trees = s.trees := rfl
@[simp] theorem State.withPending_directory (s : State) (p : List Instr) : (s.withPending p).directory = s.directory := rfl
@[simp] theorem State.withPending_trunk (s : State) (p : List Instr) : (s.withPending p).trunk = s.trunk := rfl
@[simp] theorem State.withPending_meter (s : State) (p : List Instr) : (s.withPending p).meter = s.meter := rfl
@[simp] theorem State.withPending_journal (s : State) (p : List Instr) : (s.withPending p).journal = s.journal := rfl
@[simp] theorem State.withPending_links (s : State) (p : List Instr) : (s.withPending p).links = s.links := rfl

/-! ## One tree and its parts -/

@[simp] theorem State.modTree_pending (s : State) (t : TreeId) (f : TreeState → TreeState) : (s.modTree t f).pending = s.pending := rfl
@[simp] theorem State.modTree_inReset (s : State) (t : TreeId) (f : TreeState → TreeState) : (s.modTree t f).inReset = s.inReset := rfl
@[simp] theorem State.modTree_resetDue (s : State) (t : TreeId) (f : TreeState → TreeState) : (s.modTree t f).resetDue = s.resetDue := rfl
@[simp] theorem State.modTree_freeCount (s : State) (t : TreeId) (f : TreeState → TreeState) : (s.modTree t f).freeCount = s.freeCount := rfl
@[simp] theorem State.modTree_time (s : State) (t : TreeId) (f : TreeState → TreeState) : (s.modTree t f).time = s.time := rfl
@[simp] theorem State.modTree_directory (s : State) (t : TreeId) (f : TreeState → TreeState) : (s.modTree t f).directory = s.directory := rfl
@[simp] theorem State.modTree_trunk (s : State) (t : TreeId) (f : TreeState → TreeState) : (s.modTree t f).trunk = s.trunk := rfl
@[simp] theorem State.modTree_meter (s : State) (t : TreeId) (f : TreeState → TreeState) : (s.modTree t f).meter = s.meter := rfl
@[simp] theorem State.modTree_journal (s : State) (t : TreeId) (f : TreeState → TreeState) : (s.modTree t f).journal = s.journal := rfl
@[simp] theorem State.modTree_links (s : State) (t : TreeId) (f : TreeState → TreeState) : (s.modTree t f).links = s.links := rfl

@[simp] theorem State.modSlot_pending (s : State) (t : TreeId) (l : Line) (f : Slot → Slot) : (s.modSlot t l f).pending = s.pending := rfl
@[simp] theorem State.modSlot_inReset (s : State) (t : TreeId) (l : Line) (f : Slot → Slot) : (s.modSlot t l f).inReset = s.inReset := rfl
@[simp] theorem State.modSlot_resetDue (s : State) (t : TreeId) (l : Line) (f : Slot → Slot) : (s.modSlot t l f).resetDue = s.resetDue := rfl
@[simp] theorem State.modSlot_freeCount (s : State) (t : TreeId) (l : Line) (f : Slot → Slot) : (s.modSlot t l f).freeCount = s.freeCount := rfl
@[simp] theorem State.modSlot_time (s : State) (t : TreeId) (l : Line) (f : Slot → Slot) : (s.modSlot t l f).time = s.time := rfl
@[simp] theorem State.modSlot_directory (s : State) (t : TreeId) (l : Line) (f : Slot → Slot) : (s.modSlot t l f).directory = s.directory := rfl
@[simp] theorem State.modSlot_trunk (s : State) (t : TreeId) (l : Line) (f : Slot → Slot) : (s.modSlot t l f).trunk = s.trunk := rfl
@[simp] theorem State.modSlot_meter (s : State) (t : TreeId) (l : Line) (f : Slot → Slot) : (s.modSlot t l f).meter = s.meter := rfl
@[simp] theorem State.modSlot_journal (s : State) (t : TreeId) (l : Line) (f : Slot → Slot) : (s.modSlot t l f).journal = s.journal := rfl
@[simp] theorem State.modSlot_links (s : State) (t : TreeId) (l : Line) (f : Slot → Slot) : (s.modSlot t l f).links = s.links := rfl

@[simp] theorem State.modEngine_pending (s : State) (t : TreeId) (f : Engine → Engine) : (s.modEngine t f).pending = s.pending := rfl
@[simp] theorem State.modEngine_inReset (s : State) (t : TreeId) (f : Engine → Engine) : (s.modEngine t f).inReset = s.inReset := rfl
@[simp] theorem State.modEngine_resetDue (s : State) (t : TreeId) (f : Engine → Engine) : (s.modEngine t f).resetDue = s.resetDue := rfl
@[simp] theorem State.modEngine_freeCount (s : State) (t : TreeId) (f : Engine → Engine) : (s.modEngine t f).freeCount = s.freeCount := rfl
@[simp] theorem State.modEngine_time (s : State) (t : TreeId) (f : Engine → Engine) : (s.modEngine t f).time = s.time := rfl
@[simp] theorem State.modEngine_directory (s : State) (t : TreeId) (f : Engine → Engine) : (s.modEngine t f).directory = s.directory := rfl
@[simp] theorem State.modEngine_trunk (s : State) (t : TreeId) (f : Engine → Engine) : (s.modEngine t f).trunk = s.trunk := rfl
@[simp] theorem State.modEngine_meter (s : State) (t : TreeId) (f : Engine → Engine) : (s.modEngine t f).meter = s.meter := rfl
@[simp] theorem State.modEngine_journal (s : State) (t : TreeId) (f : Engine → Engine) : (s.modEngine t f).journal = s.journal := rfl
@[simp] theorem State.modEngine_links (s : State) (t : TreeId) (f : Engine → Engine) : (s.modEngine t f).links = s.links := rfl

@[simp] theorem State.modPlanner_pending (s : State) (t : TreeId) (f : Planner → Planner) : (s.modPlanner t f).pending = s.pending := rfl
@[simp] theorem State.modPlanner_inReset (s : State) (t : TreeId) (f : Planner → Planner) : (s.modPlanner t f).inReset = s.inReset := rfl
@[simp] theorem State.modPlanner_resetDue (s : State) (t : TreeId) (f : Planner → Planner) : (s.modPlanner t f).resetDue = s.resetDue := rfl
@[simp] theorem State.modPlanner_freeCount (s : State) (t : TreeId) (f : Planner → Planner) : (s.modPlanner t f).freeCount = s.freeCount := rfl
@[simp] theorem State.modPlanner_time (s : State) (t : TreeId) (f : Planner → Planner) : (s.modPlanner t f).time = s.time := rfl
@[simp] theorem State.modPlanner_directory (s : State) (t : TreeId) (f : Planner → Planner) : (s.modPlanner t f).directory = s.directory := rfl
@[simp] theorem State.modPlanner_trunk (s : State) (t : TreeId) (f : Planner → Planner) : (s.modPlanner t f).trunk = s.trunk := rfl
@[simp] theorem State.modPlanner_meter (s : State) (t : TreeId) (f : Planner → Planner) : (s.modPlanner t f).meter = s.meter := rfl
@[simp] theorem State.modPlanner_journal (s : State) (t : TreeId) (f : Planner → Planner) : (s.modPlanner t f).journal = s.journal := rfl
@[simp] theorem State.modPlanner_links (s : State) (t : TreeId) (f : Planner → Planner) : (s.modPlanner t f).links = s.links := rfl

@[simp] theorem State.modReceiver_pending (s : State) (t : TreeId) (f : Receiver → Receiver) : (s.modReceiver t f).pending = s.pending := rfl
@[simp] theorem State.modReceiver_inReset (s : State) (t : TreeId) (f : Receiver → Receiver) : (s.modReceiver t f).inReset = s.inReset := rfl
@[simp] theorem State.modReceiver_resetDue (s : State) (t : TreeId) (f : Receiver → Receiver) : (s.modReceiver t f).resetDue = s.resetDue := rfl
@[simp] theorem State.modReceiver_freeCount (s : State) (t : TreeId) (f : Receiver → Receiver) : (s.modReceiver t f).freeCount = s.freeCount := rfl
@[simp] theorem State.modReceiver_time (s : State) (t : TreeId) (f : Receiver → Receiver) : (s.modReceiver t f).time = s.time := rfl
@[simp] theorem State.modReceiver_directory (s : State) (t : TreeId) (f : Receiver → Receiver) : (s.modReceiver t f).directory = s.directory := rfl
@[simp] theorem State.modReceiver_trunk (s : State) (t : TreeId) (f : Receiver → Receiver) : (s.modReceiver t f).trunk = s.trunk := rfl
@[simp] theorem State.modReceiver_meter (s : State) (t : TreeId) (f : Receiver → Receiver) : (s.modReceiver t f).meter = s.meter := rfl
@[simp] theorem State.modReceiver_journal (s : State) (t : TreeId) (f : Receiver → Receiver) : (s.modReceiver t f).journal = s.journal := rfl
@[simp] theorem State.modReceiver_links (s : State) (t : TreeId) (f : Receiver → Receiver) : (s.modReceiver t f).links = s.links := rfl

@[simp] theorem State.modWatch_pending (s : State) (t : TreeId) (f : Watch → Watch) : (s.modWatch t f).pending = s.pending := rfl
@[simp] theorem State.modWatch_inReset (s : State) (t : TreeId) (f : Watch → Watch) : (s.modWatch t f).inReset = s.inReset := rfl
@[simp] theorem State.modWatch_resetDue (s : State) (t : TreeId) (f : Watch → Watch) : (s.modWatch t f).resetDue = s.resetDue := rfl
@[simp] theorem State.modWatch_freeCount (s : State) (t : TreeId) (f : Watch → Watch) : (s.modWatch t f).freeCount = s.freeCount := rfl
@[simp] theorem State.modWatch_time (s : State) (t : TreeId) (f : Watch → Watch) : (s.modWatch t f).time = s.time := rfl
@[simp] theorem State.modWatch_directory (s : State) (t : TreeId) (f : Watch → Watch) : (s.modWatch t f).directory = s.directory := rfl
@[simp] theorem State.modWatch_trunk (s : State) (t : TreeId) (f : Watch → Watch) : (s.modWatch t f).trunk = s.trunk := rfl
@[simp] theorem State.modWatch_meter (s : State) (t : TreeId) (f : Watch → Watch) : (s.modWatch t f).meter = s.meter := rfl
@[simp] theorem State.modWatch_journal (s : State) (t : TreeId) (f : Watch → Watch) : (s.modWatch t f).journal = s.journal := rfl
@[simp] theorem State.modWatch_links (s : State) (t : TreeId) (f : Watch → Watch) : (s.modWatch t f).links = s.links := rfl

@[simp] theorem State.modSearch_pending (s : State) (t : TreeId) (f : Search → Search) : (s.modSearch t f).pending = s.pending := rfl
@[simp] theorem State.modSearch_inReset (s : State) (t : TreeId) (f : Search → Search) : (s.modSearch t f).inReset = s.inReset := rfl
@[simp] theorem State.modSearch_resetDue (s : State) (t : TreeId) (f : Search → Search) : (s.modSearch t f).resetDue = s.resetDue := rfl
@[simp] theorem State.modSearch_freeCount (s : State) (t : TreeId) (f : Search → Search) : (s.modSearch t f).freeCount = s.freeCount := rfl
@[simp] theorem State.modSearch_time (s : State) (t : TreeId) (f : Search → Search) : (s.modSearch t f).time = s.time := rfl
@[simp] theorem State.modSearch_directory (s : State) (t : TreeId) (f : Search → Search) : (s.modSearch t f).directory = s.directory := rfl
@[simp] theorem State.modSearch_trunk (s : State) (t : TreeId) (f : Search → Search) : (s.modSearch t f).trunk = s.trunk := rfl
@[simp] theorem State.modSearch_meter (s : State) (t : TreeId) (f : Search → Search) : (s.modSearch t f).meter = s.meter := rfl
@[simp] theorem State.modSearch_journal (s : State) (t : TreeId) (f : Search → Search) : (s.modSearch t f).journal = s.journal := rfl
@[simp] theorem State.modSearch_links (s : State) (t : TreeId) (f : Search → Search) : (s.modSearch t f).links = s.links := rfl

@[simp] theorem State.modTraffic_pending (s : State) (t : TreeId) (f : TreeTraffic → TreeTraffic) : (s.modTraffic t f).pending = s.pending := rfl
@[simp] theorem State.modTraffic_inReset (s : State) (t : TreeId) (f : TreeTraffic → TreeTraffic) : (s.modTraffic t f).inReset = s.inReset := rfl
@[simp] theorem State.modTraffic_resetDue (s : State) (t : TreeId) (f : TreeTraffic → TreeTraffic) : (s.modTraffic t f).resetDue = s.resetDue := rfl
@[simp] theorem State.modTraffic_freeCount (s : State) (t : TreeId) (f : TreeTraffic → TreeTraffic) : (s.modTraffic t f).freeCount = s.freeCount := rfl
@[simp] theorem State.modTraffic_time (s : State) (t : TreeId) (f : TreeTraffic → TreeTraffic) : (s.modTraffic t f).time = s.time := rfl
@[simp] theorem State.modTraffic_directory (s : State) (t : TreeId) (f : TreeTraffic → TreeTraffic) : (s.modTraffic t f).directory = s.directory := rfl
@[simp] theorem State.modTraffic_trunk (s : State) (t : TreeId) (f : TreeTraffic → TreeTraffic) : (s.modTraffic t f).trunk = s.trunk := rfl
@[simp] theorem State.modTraffic_meter (s : State) (t : TreeId) (f : TreeTraffic → TreeTraffic) : (s.modTraffic t f).meter = s.meter := rfl
@[simp] theorem State.modTraffic_journal (s : State) (t : TreeId) (f : TreeTraffic → TreeTraffic) : (s.modTraffic t f).journal = s.journal := rfl
@[simp] theorem State.modTraffic_links (s : State) (t : TreeId) (f : TreeTraffic → TreeTraffic) : (s.modTraffic t f).links = s.links := rfl

@[simp] theorem State.setAccount_pending (s : State) (t : TreeId) (l : Line) (a : AccountPos) : (s.setAccount t l a).pending = s.pending := rfl
@[simp] theorem State.setAccount_inReset (s : State) (t : TreeId) (l : Line) (a : AccountPos) : (s.setAccount t l a).inReset = s.inReset := rfl
@[simp] theorem State.setAccount_resetDue (s : State) (t : TreeId) (l : Line) (a : AccountPos) : (s.setAccount t l a).resetDue = s.resetDue := rfl
@[simp] theorem State.setAccount_freeCount (s : State) (t : TreeId) (l : Line) (a : AccountPos) : (s.setAccount t l a).freeCount = s.freeCount := rfl
@[simp] theorem State.setAccount_time (s : State) (t : TreeId) (l : Line) (a : AccountPos) : (s.setAccount t l a).time = s.time := rfl
@[simp] theorem State.setAccount_directory (s : State) (t : TreeId) (l : Line) (a : AccountPos) : (s.setAccount t l a).directory = s.directory := rfl
@[simp] theorem State.setAccount_trunk (s : State) (t : TreeId) (l : Line) (a : AccountPos) : (s.setAccount t l a).trunk = s.trunk := rfl
@[simp] theorem State.setAccount_meter (s : State) (t : TreeId) (l : Line) (a : AccountPos) : (s.setAccount t l a).meter = s.meter := rfl
@[simp] theorem State.setAccount_journal (s : State) (t : TreeId) (l : Line) (a : AccountPos) : (s.setAccount t l a).journal = s.journal := rfl
@[simp] theorem State.setAccount_links (s : State) (t : TreeId) (l : Line) (a : AccountPos) : (s.setAccount t l a).links = s.links := rfl

@[simp] theorem State.withdraw_pending (s : State) (t : TreeId) (p : LineMsg → Bool) : (s.withdraw t p).pending = s.pending := rfl
@[simp] theorem State.withdraw_inReset (s : State) (t : TreeId) (p : LineMsg → Bool) : (s.withdraw t p).inReset = s.inReset := rfl
@[simp] theorem State.withdraw_resetDue (s : State) (t : TreeId) (p : LineMsg → Bool) : (s.withdraw t p).resetDue = s.resetDue := rfl
@[simp] theorem State.withdraw_freeCount (s : State) (t : TreeId) (p : LineMsg → Bool) : (s.withdraw t p).freeCount = s.freeCount := rfl
@[simp] theorem State.withdraw_time (s : State) (t : TreeId) (p : LineMsg → Bool) : (s.withdraw t p).time = s.time := rfl
@[simp] theorem State.withdraw_directory (s : State) (t : TreeId) (p : LineMsg → Bool) : (s.withdraw t p).directory = s.directory := rfl
@[simp] theorem State.withdraw_trunk (s : State) (t : TreeId) (p : LineMsg → Bool) : (s.withdraw t p).trunk = s.trunk := rfl
@[simp] theorem State.withdraw_meter (s : State) (t : TreeId) (p : LineMsg → Bool) : (s.withdraw t p).meter = s.meter := rfl
@[simp] theorem State.withdraw_journal (s : State) (t : TreeId) (p : LineMsg → Bool) : (s.withdraw t p).journal = s.journal := rfl
@[simp] theorem State.withdraw_links (s : State) (t : TreeId) (p : LineMsg → Bool) : (s.withdraw t p).links = s.links := rfl

/-! ## The part-wide blocks -/

@[simp] theorem State.withDirectory_directory (s : State) (d : List (Nat × DirEntry)) : (s.withDirectory d).directory = d := rfl
@[simp] theorem State.withDirectory_pending (s : State) (d : List (Nat × DirEntry)) : (s.withDirectory d).pending = s.pending := rfl
@[simp] theorem State.withDirectory_inReset (s : State) (d : List (Nat × DirEntry)) : (s.withDirectory d).inReset = s.inReset := rfl
@[simp] theorem State.withDirectory_resetDue (s : State) (d : List (Nat × DirEntry)) : (s.withDirectory d).resetDue = s.resetDue := rfl
@[simp] theorem State.withDirectory_freeCount (s : State) (d : List (Nat × DirEntry)) : (s.withDirectory d).freeCount = s.freeCount := rfl
@[simp] theorem State.withDirectory_time (s : State) (d : List (Nat × DirEntry)) : (s.withDirectory d).time = s.time := rfl
@[simp] theorem State.withDirectory_trees (s : State) (d : List (Nat × DirEntry)) : (s.withDirectory d).trees = s.trees := rfl
@[simp] theorem State.withDirectory_trunk (s : State) (d : List (Nat × DirEntry)) : (s.withDirectory d).trunk = s.trunk := rfl
@[simp] theorem State.withDirectory_meter (s : State) (d : List (Nat × DirEntry)) : (s.withDirectory d).meter = s.meter := rfl
@[simp] theorem State.withDirectory_journal (s : State) (d : List (Nat × DirEntry)) : (s.withDirectory d).journal = s.journal := rfl
@[simp] theorem State.withDirectory_links (s : State) (d : List (Nat × DirEntry)) : (s.withDirectory d).links = s.links := rfl

@[simp] theorem State.modMeter_meter (s : State) (f : Meter → Meter) : (s.modMeter f).meter = f s.meter := rfl
@[simp] theorem State.modMeter_pending (s : State) (f : Meter → Meter) : (s.modMeter f).pending = s.pending := rfl
@[simp] theorem State.modMeter_inReset (s : State) (f : Meter → Meter) : (s.modMeter f).inReset = s.inReset := rfl
@[simp] theorem State.modMeter_resetDue (s : State) (f : Meter → Meter) : (s.modMeter f).resetDue = s.resetDue := rfl
@[simp] theorem State.modMeter_freeCount (s : State) (f : Meter → Meter) : (s.modMeter f).freeCount = s.freeCount := rfl
@[simp] theorem State.modMeter_time (s : State) (f : Meter → Meter) : (s.modMeter f).time = s.time := rfl
@[simp] theorem State.modMeter_trees (s : State) (f : Meter → Meter) : (s.modMeter f).trees = s.trees := rfl
@[simp] theorem State.modMeter_directory (s : State) (f : Meter → Meter) : (s.modMeter f).directory = s.directory := rfl
@[simp] theorem State.modMeter_trunk (s : State) (f : Meter → Meter) : (s.modMeter f).trunk = s.trunk := rfl
@[simp] theorem State.modMeter_journal (s : State) (f : Meter → Meter) : (s.modMeter f).journal = s.journal := rfl
@[simp] theorem State.modMeter_links (s : State) (f : Meter → Meter) : (s.modMeter f).links = s.links := rfl

@[simp] theorem State.modJournal_journal (s : State) (f : Journal → Journal) : (s.modJournal f).journal = f s.journal := rfl
@[simp] theorem State.modJournal_pending (s : State) (f : Journal → Journal) : (s.modJournal f).pending = s.pending := rfl
@[simp] theorem State.modJournal_inReset (s : State) (f : Journal → Journal) : (s.modJournal f).inReset = s.inReset := rfl
@[simp] theorem State.modJournal_resetDue (s : State) (f : Journal → Journal) : (s.modJournal f).resetDue = s.resetDue := rfl
@[simp] theorem State.modJournal_freeCount (s : State) (f : Journal → Journal) : (s.modJournal f).freeCount = s.freeCount := rfl
@[simp] theorem State.modJournal_time (s : State) (f : Journal → Journal) : (s.modJournal f).time = s.time := rfl
@[simp] theorem State.modJournal_trees (s : State) (f : Journal → Journal) : (s.modJournal f).trees = s.trees := rfl
@[simp] theorem State.modJournal_directory (s : State) (f : Journal → Journal) : (s.modJournal f).directory = s.directory := rfl
@[simp] theorem State.modJournal_trunk (s : State) (f : Journal → Journal) : (s.modJournal f).trunk = s.trunk := rfl
@[simp] theorem State.modJournal_meter (s : State) (f : Journal → Journal) : (s.modJournal f).meter = s.meter := rfl
@[simp] theorem State.modJournal_links (s : State) (f : Journal → Journal) : (s.modJournal f).links = s.links := rfl

@[simp] theorem State.modLink_pending (s : State) (k : Link) (f : LinkState → LinkState) : (s.modLink k f).pending = s.pending := by cases k <;> rfl
@[simp] theorem State.modLink_inReset (s : State) (k : Link) (f : LinkState → LinkState) : (s.modLink k f).inReset = s.inReset := by cases k <;> rfl
@[simp] theorem State.modLink_resetDue (s : State) (k : Link) (f : LinkState → LinkState) : (s.modLink k f).resetDue = s.resetDue := by cases k <;> rfl
@[simp] theorem State.modLink_freeCount (s : State) (k : Link) (f : LinkState → LinkState) : (s.modLink k f).freeCount = s.freeCount := by cases k <;> rfl
@[simp] theorem State.modLink_time (s : State) (k : Link) (f : LinkState → LinkState) : (s.modLink k f).time = s.time := by cases k <;> rfl
@[simp] theorem State.modLink_trees (s : State) (k : Link) (f : LinkState → LinkState) : (s.modLink k f).trees = s.trees := by cases k <;> rfl
@[simp] theorem State.modLink_directory (s : State) (k : Link) (f : LinkState → LinkState) : (s.modLink k f).directory = s.directory := by cases k <;> rfl
@[simp] theorem State.modLink_trunk (s : State) (k : Link) (f : LinkState → LinkState) : (s.modLink k f).trunk = s.trunk := by cases k <;> rfl
@[simp] theorem State.modLink_meter (s : State) (k : Link) (f : LinkState → LinkState) : (s.modLink k f).meter = s.meter := by cases k <;> rfl
@[simp] theorem State.modLink_journal (s : State) (k : Link) (f : LinkState → LinkState) : (s.modLink k f).journal = s.journal := by cases k <;> rfl

@[simp] theorem State.hunt_pending (s : State) (k : Link) : (s.hunt k).pending = s.pending := by cases k <;> rfl
@[simp] theorem State.hunt_inReset (s : State) (k : Link) : (s.hunt k).inReset = s.inReset := by cases k <;> rfl
@[simp] theorem State.hunt_resetDue (s : State) (k : Link) : (s.hunt k).resetDue = s.resetDue := by cases k <;> rfl
@[simp] theorem State.hunt_freeCount (s : State) (k : Link) : (s.hunt k).freeCount = s.freeCount := by cases k <;> rfl
@[simp] theorem State.hunt_time (s : State) (k : Link) : (s.hunt k).time = s.time := by cases k <;> rfl
@[simp] theorem State.hunt_trees (s : State) (k : Link) : (s.hunt k).trees = s.trees := by cases k <;> rfl
@[simp] theorem State.hunt_directory (s : State) (k : Link) : (s.hunt k).directory = s.directory := by cases k <;> rfl
@[simp] theorem State.hunt_trunk (s : State) (k : Link) : (s.hunt k).trunk = s.trunk := by cases k <;> rfl
@[simp] theorem State.hunt_meter (s : State) (k : Link) : (s.hunt k).meter = s.meter := by cases k <;> rfl
@[simp] theorem State.hunt_journal (s : State) (k : Link) : (s.hunt k).journal = s.journal := by cases k <;> rfl

@[simp] theorem State.pump_pending (s : State) : (s.pump).pending = s.pending := rfl
@[simp] theorem State.pump_inReset (s : State) : (s.pump).inReset = s.inReset := rfl
@[simp] theorem State.pump_resetDue (s : State) : (s.pump).resetDue = s.resetDue := rfl
@[simp] theorem State.pump_freeCount (s : State) : (s.pump).freeCount = s.freeCount := rfl
@[simp] theorem State.pump_time (s : State) : (s.pump).time = s.time := rfl
@[simp] theorem State.pump_trees (s : State) : (s.pump).trees = s.trees := rfl
@[simp] theorem State.pump_directory (s : State) : (s.pump).directory = s.directory := rfl
@[simp] theorem State.pump_trunk (s : State) : (s.pump).trunk = s.trunk := rfl
@[simp] theorem State.pump_meter (s : State) : (s.pump).meter = s.meter := rfl
@[simp] theorem State.pump_journal (s : State) : (s.pump).journal = s.journal := rfl

@[simp] theorem State.raise_pending (s : State) (kind : NoticeKind) (tree : Option TreeId) (line : KeyLine) (d : Details) : (s.raise kind tree line d).pending = s.pending := rfl
@[simp] theorem State.raise_inReset (s : State) (kind : NoticeKind) (tree : Option TreeId) (line : KeyLine) (d : Details) : (s.raise kind tree line d).inReset = s.inReset := rfl
@[simp] theorem State.raise_resetDue (s : State) (kind : NoticeKind) (tree : Option TreeId) (line : KeyLine) (d : Details) : (s.raise kind tree line d).resetDue = s.resetDue := rfl
@[simp] theorem State.raise_freeCount (s : State) (kind : NoticeKind) (tree : Option TreeId) (line : KeyLine) (d : Details) : (s.raise kind tree line d).freeCount = s.freeCount := rfl
@[simp] theorem State.raise_time (s : State) (kind : NoticeKind) (tree : Option TreeId) (line : KeyLine) (d : Details) : (s.raise kind tree line d).time = s.time := rfl
@[simp] theorem State.raise_trees (s : State) (kind : NoticeKind) (tree : Option TreeId) (line : KeyLine) (d : Details) : (s.raise kind tree line d).trees = s.trees := rfl
@[simp] theorem State.raise_directory (s : State) (kind : NoticeKind) (tree : Option TreeId) (line : KeyLine) (d : Details) : (s.raise kind tree line d).directory = s.directory := rfl
@[simp] theorem State.raise_trunk (s : State) (kind : NoticeKind) (tree : Option TreeId) (line : KeyLine) (d : Details) : (s.raise kind tree line d).trunk = s.trunk := rfl
@[simp] theorem State.raise_meter (s : State) (kind : NoticeKind) (tree : Option TreeId) (line : KeyLine) (d : Details) : (s.raise kind tree line d).meter = s.meter := rfl
@[simp] theorem State.raise_journal (s : State) (kind : NoticeKind) (tree : Option TreeId) (line : KeyLine) (d : Details) : (s.raise kind tree line d).journal = s.journal := rfl

@[simp] theorem State.raiseHome_pending (s : State) (kind : NoticeKind) (t : TreeId) (l : Line) (d : Details) : (s.raiseHome kind t l d).pending = s.pending := rfl
@[simp] theorem State.raiseHome_inReset (s : State) (kind : NoticeKind) (t : TreeId) (l : Line) (d : Details) : (s.raiseHome kind t l d).inReset = s.inReset := rfl
@[simp] theorem State.raiseHome_resetDue (s : State) (kind : NoticeKind) (t : TreeId) (l : Line) (d : Details) : (s.raiseHome kind t l d).resetDue = s.resetDue := rfl
@[simp] theorem State.raiseHome_freeCount (s : State) (kind : NoticeKind) (t : TreeId) (l : Line) (d : Details) : (s.raiseHome kind t l d).freeCount = s.freeCount := rfl
@[simp] theorem State.raiseHome_time (s : State) (kind : NoticeKind) (t : TreeId) (l : Line) (d : Details) : (s.raiseHome kind t l d).time = s.time := rfl
@[simp] theorem State.raiseHome_trees (s : State) (kind : NoticeKind) (t : TreeId) (l : Line) (d : Details) : (s.raiseHome kind t l d).trees = s.trees := rfl
@[simp] theorem State.raiseHome_directory (s : State) (kind : NoticeKind) (t : TreeId) (l : Line) (d : Details) : (s.raiseHome kind t l d).directory = s.directory := rfl
@[simp] theorem State.raiseHome_trunk (s : State) (kind : NoticeKind) (t : TreeId) (l : Line) (d : Details) : (s.raiseHome kind t l d).trunk = s.trunk := rfl
@[simp] theorem State.raiseHome_meter (s : State) (kind : NoticeKind) (t : TreeId) (l : Line) (d : Details) : (s.raiseHome kind t l d).meter = s.meter := rfl
@[simp] theorem State.raiseHome_journal (s : State) (kind : NoticeKind) (t : TreeId) (l : Line) (d : Details) : (s.raiseHome kind t l d).journal = s.journal := rfl

@[simp] theorem State.raiseTree_pending (s : State) (kind : NoticeKind) (t : TreeId) (d : Details) : (s.raiseTree kind t d).pending = s.pending := rfl
@[simp] theorem State.raiseTree_inReset (s : State) (kind : NoticeKind) (t : TreeId) (d : Details) : (s.raiseTree kind t d).inReset = s.inReset := rfl
@[simp] theorem State.raiseTree_resetDue (s : State) (kind : NoticeKind) (t : TreeId) (d : Details) : (s.raiseTree kind t d).resetDue = s.resetDue := rfl
@[simp] theorem State.raiseTree_freeCount (s : State) (kind : NoticeKind) (t : TreeId) (d : Details) : (s.raiseTree kind t d).freeCount = s.freeCount := rfl
@[simp] theorem State.raiseTree_time (s : State) (kind : NoticeKind) (t : TreeId) (d : Details) : (s.raiseTree kind t d).time = s.time := rfl
@[simp] theorem State.raiseTree_trees (s : State) (kind : NoticeKind) (t : TreeId) (d : Details) : (s.raiseTree kind t d).trees = s.trees := rfl
@[simp] theorem State.raiseTree_directory (s : State) (kind : NoticeKind) (t : TreeId) (d : Details) : (s.raiseTree kind t d).directory = s.directory := rfl
@[simp] theorem State.raiseTree_trunk (s : State) (kind : NoticeKind) (t : TreeId) (d : Details) : (s.raiseTree kind t d).trunk = s.trunk := rfl
@[simp] theorem State.raiseTree_meter (s : State) (kind : NoticeKind) (t : TreeId) (d : Details) : (s.raiseTree kind t d).meter = s.meter := rfl
@[simp] theorem State.raiseTree_journal (s : State) (kind : NoticeKind) (t : TreeId) (d : Details) : (s.raiseTree kind t d).journal = s.journal := rfl

@[simp] theorem State.raisePart_pending (s : State) (kind : NoticeKind) (d : Details) : (s.raisePart kind d).pending = s.pending := rfl
@[simp] theorem State.raisePart_inReset (s : State) (kind : NoticeKind) (d : Details) : (s.raisePart kind d).inReset = s.inReset := rfl
@[simp] theorem State.raisePart_resetDue (s : State) (kind : NoticeKind) (d : Details) : (s.raisePart kind d).resetDue = s.resetDue := rfl
@[simp] theorem State.raisePart_freeCount (s : State) (kind : NoticeKind) (d : Details) : (s.raisePart kind d).freeCount = s.freeCount := rfl
@[simp] theorem State.raisePart_time (s : State) (kind : NoticeKind) (d : Details) : (s.raisePart kind d).time = s.time := rfl
@[simp] theorem State.raisePart_trees (s : State) (kind : NoticeKind) (d : Details) : (s.raisePart kind d).trees = s.trees := rfl
@[simp] theorem State.raisePart_directory (s : State) (kind : NoticeKind) (d : Details) : (s.raisePart kind d).directory = s.directory := rfl
@[simp] theorem State.raisePart_trunk (s : State) (kind : NoticeKind) (d : Details) : (s.raisePart kind d).trunk = s.trunk := rfl
@[simp] theorem State.raisePart_meter (s : State) (kind : NoticeKind) (d : Details) : (s.raisePart kind d).meter = s.meter := rfl
@[simp] theorem State.raisePart_journal (s : State) (kind : NoticeKind) (d : Details) : (s.raisePart kind d).journal = s.journal := rfl

@[simp] theorem State.reply_pending (s : State) (h : Head) (kind : Byte) (a : Answer) (own : Bool) : (s.reply h kind a own).pending = s.pending := by simp [State.reply]
@[simp] theorem State.reply_inReset (s : State) (h : Head) (kind : Byte) (a : Answer) (own : Bool) : (s.reply h kind a own).inReset = s.inReset := by simp [State.reply]
@[simp] theorem State.reply_resetDue (s : State) (h : Head) (kind : Byte) (a : Answer) (own : Bool) : (s.reply h kind a own).resetDue = s.resetDue := by simp [State.reply]
@[simp] theorem State.reply_freeCount (s : State) (h : Head) (kind : Byte) (a : Answer) (own : Bool) : (s.reply h kind a own).freeCount = s.freeCount := by simp [State.reply]
@[simp] theorem State.reply_time (s : State) (h : Head) (kind : Byte) (a : Answer) (own : Bool) : (s.reply h kind a own).time = s.time := by simp [State.reply]
@[simp] theorem State.reply_trees (s : State) (h : Head) (kind : Byte) (a : Answer) (own : Bool) : (s.reply h kind a own).trees = s.trees := by simp [State.reply]
@[simp] theorem State.reply_directory (s : State) (h : Head) (kind : Byte) (a : Answer) (own : Bool) : (s.reply h kind a own).directory = s.directory := by simp [State.reply]
@[simp] theorem State.reply_trunk (s : State) (h : Head) (kind : Byte) (a : Answer) (own : Bool) : (s.reply h kind a own).trunk = s.trunk := by simp [State.reply]
@[simp] theorem State.reply_meter (s : State) (h : Head) (kind : Byte) (a : Answer) (own : Bool) : (s.reply h kind a own).meter = s.meter := by simp [State.reply]
@[simp] theorem State.reply_journal (s : State) (h : Head) (kind : Byte) (a : Answer) (own : Bool) : (s.reply h kind a own).journal = s.journal := by simp [State.reply]

/-! ## Reading a tree or a slot after an update -/

@[simp] theorem State.modTree_tree (s : State) (t : TreeId) (f : TreeState → TreeState) : (s.modTree t f).tree t = f (s.tree t) := by
  simp [State.modTree, State.tree]

@[simp] theorem State.modTree_tree_ne (s : State) {t u : TreeId} (f : TreeState → TreeState) (h : u ≠ t) :
    (s.modTree t f).tree u = s.tree u := by
  have h' : t.val ≠ u.val := fun e => h (Fin.ext e.symm)
  simp [State.modTree, State.tree, Vector.getElem_set_ne, h']

theorem State.tree_congr {s s' : State} (h : s'.trees = s.trees) (t : TreeId) : s'.tree t = s.tree t := by
  simp [State.tree, h]

theorem State.slot_congr {s s' : State} (h : s'.trees = s.trees) (t : TreeId) (l : Line) : s'.slot t l = s.slot t l := by
  simp [State.slot, State.tree, h]

@[simp] theorem TreeState.modSlot_slot (T : TreeState) (l : Line) (f : Slot → Slot) : (T.modSlot l f).slot l = f (T.slot l) := by
  simp [TreeState.modSlot, TreeState.slot]

@[simp] theorem TreeState.modSlot_slot_ne (T : TreeState) {l k : Line} (f : Slot → Slot) (h : k ≠ l) :
    (T.modSlot l f).slot k = T.slot k := by
  have h' : l.val ≠ k.val := fun e => h (Fin.ext e.symm)
  simp [TreeState.modSlot, TreeState.slot, Vector.getElem_set_ne, h']

@[simp] theorem State.modSlot_slot (s : State) (t : TreeId) (l : Line) (f : Slot → Slot) : (s.modSlot t l f).slot t l = f (s.slot t l) := by
  simp [State.modSlot, State.slot]

@[simp] theorem State.modSlot_slot_line_ne (s : State) (t : TreeId) {l k : Line} (f : Slot → Slot) (h : k ≠ l) :
    (s.modSlot t l f).slot t k = s.slot t k := by
  simp [State.modSlot, State.slot, h]

@[simp] theorem State.modSlot_slot_tree_ne (s : State) {t u : TreeId} (l k : Line) (f : Slot → Slot) (h : u ≠ t) :
    (s.modSlot t l f).slot u k = s.slot u k := by
  simp [State.modSlot, State.slot, h]

/-! ## The timebase, a planner and a watch after their updates -/

@[simp] theorem Timebase.advance_frame (x : Timebase) : x.advance.frame = frameNumber (x.frame + 1) := rfl
@[simp] theorem Timebase.advance_wraps (x : Timebase) : x.advance.wraps = x.wraps + (x.frame + 1) / Config.frameNumbers := rfl
@[simp] theorem Timebase.advance_boundaries (x : Timebase) : x.advance.boundaries = x.boundaries := rfl
@[simp] theorem Timebase.advance_secondsDue (x : Timebase) : x.advance.secondsDue = x.secondsDue := rfl
@[simp] theorem Timebase.advance_seconds (x : Timebase) : x.advance.seconds = x.seconds := rfl
@[simp] theorem Timebase.advance_lastSecond (x : Timebase) : x.advance.lastSecond = x.lastSecond := rfl

@[simp] theorem Planner.dropLine_rotation (p : Planner) (l : Line) : (p.dropLine l).rotation = p.rotation := rfl
@[simp] theorem Planner.dropLine_hold (p : Planner) (l : Line) : (p.dropLine l).hold = p.hold := rfl
@[simp] theorem Planner.dropLine_quiet (p : Planner) (l : Line) : (p.dropLine l).quiet = p.quiet := rfl
@[simp] theorem Planner.dropLine_remainder (p : Planner) (l : Line) : (p.dropLine l).remainder = p.remainder := rfl
@[simp] theorem Planner.dropLine_rangingList (p : Planner) (l : Line) :
    (p.dropLine l).rangingList = p.rangingList.filter (fun k => k ≠ l) := rfl
@[simp] theorem Planner.dropLine_verifyList (p : Planner) (l : Line) : (p.dropLine l).verifyList = p.verifyList.filter (fun k => k ≠ l) := rfl
@[simp] theorem Planner.dropLine_summary (p : Planner) (l : Line) : (p.dropLine l).summary = p.summary := rfl

@[simp] theorem Watch.enter_endedFirst (w : Watch) (r : Rogue) : (w.enter r).endedFirst = w.endedFirst := rfl
@[simp] theorem Watch.leave_rogue (w : Watch) (o : SearchOutcome) : (w.leave o).rogue = o.rogue := rfl
@[simp] theorem Watch.leave_current (w : Watch) (o : SearchOutcome) : (w.leave o).current = {} := rfl
@[simp] theorem Watch.leave_endedFirst (w : Watch) (o : SearchOutcome) :
    (w.leave o).endedFirst = (w.endedFirst || w.periodDue.isSome) := rfl
@[simp] theorem Watch.leave_periodDue (w : Watch) (o : SearchOutcome) : (w.leave o).periodDue = w.periodDue := rfl

/-! ## Reading a link after an update -/

@[simp] theorem State.modLink_link (s : State) (k : Link) (f : LinkState → LinkState) : (s.modLink k f).link k = f (s.link k) := by
  cases k <;> rfl

theorem State.modLink_link_ne (s : State) {k j : Link} (f : LinkState → LinkState) (h : j ≠ k) : (s.modLink k f).link j = s.link j := by
  cases k <;> cases j <;> first | rfl | exact absurd rfl h

@[simp] theorem State.hunt_link (s : State) (k j : Link) : (s.hunt k).link j = s.link j := by
  cases k <;> cases j <;> rfl

/-! ## Commands that the reset does not hold off -/

theorem State.live_of_running {s : State} (f : State → State) (h : s.inReset = false) : s.live f = .next (f s) := by
  simp [State.live, h]

theorem State.live_of_reset {s : State} (f : State → State) (h : s.inReset = true) : s.live f = .next s := by
  simp [State.live, h]

end Sys2Proof.Machine
end

