-- ==== Sys2Proof/Laws/Ops.lean ====
section
/-! SUPPORT. The shared operations, each said once: the sparse stores and their canonical form, the line-message queue, the notice set, the arrival
of a request. -/

namespace Sys2Proof.Machine

/-! ## Stores -/

section Stores

variable {α : Type}

theorem storeWf_cons {k : Nat} {v : α} {rest : List (Nat × α)} :
    storeWf ((k, v) :: rest) = true ↔ (∀ p ∈ rest, k < p.1) ∧ storeWf rest = true := by
  simp [storeWf]

theorem mem_of_mem_storeDel {m : List (Nat × α)} {k : Nat} {p : Nat × α} (h : p ∈ storeDel m k) : p ∈ m := by
  induction m with
  | nil => simp [storeDel] at h
  | cons q rest ih =>
    obtain ⟨j, v⟩ := q
    simp only [storeDel] at h
    split at h
    · exact List.mem_cons_of_mem _ (ih h)
    · rcases List.mem_cons.mp h with rfl | h'
      · exact List.mem_cons_self
      · exact List.mem_cons_of_mem _ (ih h')

theorem storeDel_wf {m : List (Nat × α)} (k : Nat) (h : storeWf m = true) : storeWf (storeDel m k) = true := by
  induction m with
  | nil => rfl
  | cons q rest ih =>
    obtain ⟨j, v⟩ := q
    rw [storeWf_cons] at h
    simp only [storeDel]
    split
    · exact ih h.2
    · exact storeWf_cons.mpr ⟨fun p hp => h.1 p (mem_of_mem_storeDel hp), ih h.2⟩

theorem mem_storeInsert {m : List (Nat × α)} {k : Nat} {v : α} {p : Nat × α} (h : p ∈ storeInsert m k v) : p = (k, v) ∨ p ∈ m := by
  induction m with
  | nil => simpa [storeInsert] using h
  | cons q rest ih =>
    obtain ⟨j, w⟩ := q
    simp only [storeInsert] at h
    split at h
    · simpa using h
    · rcases List.mem_cons.mp h with rfl | h'
      · exact .inr List.mem_cons_self
      · exact (ih h').imp_right (List.mem_cons_of_mem _)

theorem storeInsert_wf {m : List (Nat × α)} {k : Nat} (v : α) (h : storeWf m = true) (hk : ∀ p ∈ m, p.1 ≠ k) :
    storeWf (storeInsert m k v) = true := by
  induction m with
  | nil => rfl
  | cons q rest ih =>
    obtain ⟨j, w⟩ := q
    have hr := storeWf_cons.mp h
    simp only [storeInsert]
    split
    · rename_i lt
      refine storeWf_cons.mpr ⟨fun p hp => ?_, h⟩
      rcases List.mem_cons.mp hp with rfl | hp'
      · exact lt
      · exact Nat.lt_trans lt (hr.1 p hp')
    · rename_i nlt
      have hj : j ≠ k := hk (j, w) List.mem_cons_self
      refine storeWf_cons.mpr ⟨fun p hp => ?_, ih hr.2 (fun p hp => hk p (List.mem_cons_of_mem _ hp))⟩
      rcases mem_storeInsert hp with rfl | hp'
      · show j < k
        omega
      · exact hr.1 p hp'

theorem storeDel_key_ne {m : List (Nat × α)} {k : Nat} {p : Nat × α} (h : p ∈ storeDel m k) : p.1 ≠ k := by
  induction m with
  | nil => simp [storeDel] at h
  | cons q rest ih =>
    obtain ⟨j, v⟩ := q
    simp only [storeDel] at h
    split at h
    · exact ih h
    · rename_i ne
      rcases List.mem_cons.mp h with rfl | h'
      · exact ne
      · exact ih h'

theorem storePut_wf {m : List (Nat × α)} (k : Nat) (v : α) (h : storeWf m = true) : storeWf (storePut m k v) = true :=
  storeInsert_wf v (storeDel_wf k h) fun _ hp => storeDel_key_ne hp

@[simp] theorem storeGet_storeDel (m : List (Nat × α)) (k : Nat) : storeGet (storeDel m k) k = none := by
  induction m with
  | nil => rfl
  | cons q rest ih =>
    obtain ⟨j, v⟩ := q
    simp only [storeDel]
    split
    · exact ih
    · rename_i ne
      simp [storeGet, ne, ih]

theorem storeGet_storeDel_ne (m : List (Nat × α)) {k i : Nat} (h : i ≠ k) : storeGet (storeDel m k) i = storeGet m i := by
  induction m with
  | nil => rfl
  | cons q rest ih =>
    obtain ⟨j, v⟩ := q
    simp only [storeDel]
    split
    · rename_i e
      have : j ≠ i := by omega
      simp [storeGet, this, ih]
    · simp only [storeGet, ih]

theorem storeGet_storeInsert (m : List (Nat × α)) {k : Nat} (v : α) (h : storeGet m k = none) (i : Nat) :
    storeGet (storeInsert m k v) i = if i = k then some v else storeGet m i := by
  induction m with
  | nil =>
    simp only [storeInsert, storeGet, eq_comm (a := k)]
  | cons q rest ih =>
    obtain ⟨j, w⟩ := q
    have hjk : j ≠ k := by
      intro e
      simp [storeGet, e] at h
    have hrest : storeGet rest k = none := by simpa [storeGet, hjk] using h
    simp only [storeInsert]
    split
    · simp only [storeGet, eq_comm (a := k)]
    · simp only [storeGet, ih hrest]
      by_cases e : j = i
      · subst e
        simp [hjk]
      · simp [e]

@[simp] theorem storeGet_storePut (m : List (Nat × α)) (k : Nat) (v : α) : storeGet (storePut m k v) k = some v := by
  simp [storePut, storeGet_storeInsert]

theorem storeGet_storePut_ne (m : List (Nat × α)) {k i : Nat} (v : α) (h : i ≠ k) : storeGet (storePut m k v) i = storeGet m i := by
  simp [storePut, storeGet_storeInsert, h, storeGet_storeDel_ne]

end Stores

/-! ## The line-message queue -/

theorem Framer.add_count (f : Framer) (m : LineMsg) : (f.add m).count = f.count + 1 := by
  unfold Framer.add Framer.count
  split <;> simp <;> omega

theorem Framer.keep_count (f : Framer) (p : LineMsg → Bool) : (f.keep p).count ≤ f.count :=
  Nat.add_le_add (List.length_filter_le ..) (List.length_filter_le ..)

@[simp] theorem Framer.disown_urgent (f : Framer) (l : Line) : (f.disown l).urgent = f.urgent := rfl

@[simp] theorem Framer.disown_count (f : Framer) (l : Line) : (f.disown l).count = f.count := by
  simp [Framer.disown, Framer.count]

/-- No message of the queue carries out a step of a context of the line whose context has been released (R52, R54). -/
theorem Framer.disown_delay {f : Framer} {l : Line} {v : Nat} {use : DelayUse} (h : .delay l v use ∈ (f.disown l).ordinary) :
    use = .drift ∨ use = .abandoned := by
  obtain ⟨m, -, hm⟩ := List.mem_map.1 h
  cases m <;> simp only [LineMsg.disowned, LineMsg.delay.injEq, reduceCtorEq] at hm
  obtain ⟨rfl, -, rfl⟩ := hm
  rename_i use
  cases use <;> simp [DelayUse.disowned]

/-- What a released context leaves of every other message. -/
theorem Framer.disown_other {f : Framer} {l : Line} {m : LineMsg} (hm : ∀ v use, m ≠ .delay l v use) :
    m ∈ (f.disown l).ordinary ↔ m ∈ f.ordinary := by
  have fixed : ∀ x : LineMsg, x.disowned l = m → x = m := by
    intro x hx
    cases x with
    | delay k v use =>
      by_cases hk : k = l
      · subst hk; exact absurd hx.symm (hm _ _)
      · simpa [LineMsg.disowned, hk] using hx
    | _ => simpa [LineMsg.disowned] using hx
  refine ⟨fun h => ?_, fun h => List.mem_map.2 ⟨m, h, ?_⟩⟩
  · obtain ⟨x, hx, rfl⟩ := List.mem_map.1 h
    exact fixed x rfl ▸ hx
  · cases m with
    | delay k v use =>
      have : k ≠ l := fun hk => hm v use (hk ▸ rfl)
      simp [LineMsg.disowned, this]
    | _ => rfl

/-- An offer adds the message at the end of its class and is accepted, or, with 64 entries held, is refused and changes nothing (R7). -/
theorem State.offer_cases (s : State) (t : TreeId) (m : LineMsg) :
    ((s.tree t).framer.count < Config.messageCap ∧
      s.offer t m = (s.modTree t (fun T => { T with framer := T.framer.add m }), true)) ∨
    (Config.messageCap ≤ (s.tree t).framer.count ∧ s.offer t m = (s, false)) := by
  unfold State.offer
  split
  · exact .inl ⟨‹_›, rfl⟩
  · exact .inr ⟨Nat.le_of_not_lt ‹_›, rfl⟩

/-! ## The notice set -/

theorem foldNotice_keys (ns : List Notice) (kind : NoticeKind) (tree : Option TreeId) (line : KeyLine) (d : Details) :
    (foldNotice ns kind tree line d).length ≤ ns.length + 1 := by
  unfold foldNotice
  split <;> simp

/-! ## The arrival of a request -/

/-- What the arrival of a request can do (R186): with three replies waiting it is discarded and counted; with another request in hand it is answered
BUSY; else it is in hand and is judged. -/
theorem State.receive_cases (s : State) (h : Head) (kind : Byte) (body : State → State × Answer) :
    (3 ≤ (s.link h.link).replies.length ∧
      s.receive h kind body = (s.hunt h.link).modLink h.link (fun k => { k with busyDiscards := bump k.busyDiscards })) ∨
    ((s.link h.link).replies.length < 3 ∧ (s.link h.link).inHand.isSome ∧
      s.receive h kind body =
        ((s.hunt h.link).modLink h.link (fun k => { k with busyAnswers := bump k.busyAnswers })).reply h kind (refuse .busy) false) ∨
    ((s.link h.link).replies.length < 3 ∧ (s.link h.link).inHand = none ∧
      s.receive h kind body =
        (body ((s.hunt h.link).modLink h.link (fun k => { k with inHand := some kind }))).1.reply h kind
          (body ((s.hunt h.link).modLink h.link (fun k => { k with inHand := some kind }))).2 true) := by
  unfold State.receive
  simp only [State.hunt_link]
  split
  · exact .inl ⟨‹_›, rfl⟩
  · rename_i lt
    split
    · exact .inr (.inl ⟨Nat.lt_of_not_le lt, ‹_›, rfl⟩)
    · exact .inr (.inr ⟨Nat.lt_of_not_le lt, by rename_i none; simpa using none, rfl⟩)

theorem State.ready_cases {s : State} {h : Head} {k : ReqKind} (hr : s.ready h k = true) :
    s.inReset = false ∧ (s.link h.link).replies.length < 3 ∧ (s.link h.link).inHand = none ∧ s.permitted h.link k = true := by
  simpa [State.ready, and_assoc] using hr

theorem State.taken_permitted (s : State) (h : Head) (kind : Byte) (j : Link) (k : ReqKind) :
    (s.taken h kind).permitted j k = s.permitted j k := by
  unfold State.taken
  cases h.link <;> cases j <;> rfl

/-- A request that its link can hand on is judged by its owner with the request in hand, and its answer is placed (R186, R187). -/
theorem State.request_ready {s : State} {h : Head} {k : ReqKind} (owner : State → State × Answer) (hr : s.ready h k = true) :
    s.request h k owner = (owner (s.taken h k.byte)).1.answer h k (owner (s.taken h k.byte)).2 := by
  obtain ⟨-, hl, hi, hp⟩ := State.ready_cases hr
  rcases State.receive_cases s h k.byte (judgeRequest h k owner) with ⟨h3, -⟩ | ⟨-, h3, -⟩ | ⟨-, -, e⟩
  · omega
  · simp [hi] at h3
  · have hj : judgeRequest h k owner (s.taken h k.byte) = owner (s.taken h k.byte) := by
      simp [judgeRequest, State.taken_permitted, hp]
    exact e.trans (by rw [show (s.hunt h.link).modLink h.link _ = s.taken h k.byte from rfl, hj]; rfl)

/-! ### What the arrival of a request leaves alone -/

@[simp] theorem State.taken_tree (s : State) (h : Head) (k : Byte) (t : TreeId) : (s.taken h k).tree t = s.tree t := by
  cases hl : h.link <;> simp [State.taken, State.hunt, State.modLink, State.tree, hl]

@[simp] theorem State.taken_slot (s : State) (h : Head) (k : Byte) (t : TreeId) (l : Line) : (s.taken h k).slot t l = s.slot t l := by
  simp [State.slot]

@[simp] theorem State.taken_directory (s : State) (h : Head) (k : Byte) : (s.taken h k).directory = s.directory := by
  cases hl : h.link <;> simp [State.taken, State.hunt, State.modLink, hl]

@[simp] theorem State.taken_meter (s : State) (h : Head) (k : Byte) : (s.taken h k).meter = s.meter := by
  cases hl : h.link <;> simp [State.taken, State.hunt, State.modLink, hl]

@[simp] theorem State.taken_journal (s : State) (h : Head) (k : Byte) : (s.taken h k).journal = s.journal := by
  cases hl : h.link <;> simp [State.taken, State.hunt, State.modLink, hl]

@[simp] theorem State.taken_trunk (s : State) (h : Head) (k : Byte) : (s.taken h k).trunk = s.trunk := by
  cases hl : h.link <;> simp [State.taken, State.hunt, State.modLink, hl]

@[simp] theorem State.taken_time (s : State) (h : Head) (k : Byte) : (s.taken h k).time = s.time := by
  cases hl : h.link <;> simp [State.taken, State.hunt, State.modLink, hl]

/-! ## Changes of one tree, one after another -/

@[simp] theorem TreeState.slot_mapSlots (T : TreeState) (f : Line → Slot → Slot) (l : Line) :
    (T.mapSlots f).slot l = f l (T.slot l) := by
  simp [TreeState.mapSlots, TreeState.slot, allLines]

@[simp] theorem State.modTree_modTree (s : State) (t : TreeId) (f g : TreeState → TreeState) :
    (s.modTree t f).modTree t g = s.modTree t (fun T => g (f T)) := by
  simp [State.modTree, State.tree]

theorem State.modTree_congr (s : State) (t : TreeId) {f g : TreeState → TreeState} (h : f (s.tree t) = g (s.tree t)) :
    s.modTree t f = s.modTree t g := by
  unfold State.modTree
  rw [h]

theorem State.modTree_self (s : State) (t : TreeId) {f : TreeState → TreeState} (h : f (s.tree t) = s.tree t) : s.modTree t f = s := by
  unfold State.modTree
  rw [h]
  simp [State.tree]

/-! ## The timebase -/

/-- A frame on is one frame more, whether or not the frame number wraps (R1). -/
theorem Timebase.advance_count (x : Timebase) : x.advance.count = x.count + 1 := by
  show Config.frameNumbers * (x.wraps + (x.frame + 1) / Config.frameNumbers) + (x.frame + 1) % Config.frameNumbers =
    Config.frameNumbers * x.wraps + x.frame + 1
  rw [Nat.mul_add, Nat.add_assoc, Nat.div_add_mod, Nat.add_assoc]

/-! ## A hello of a home whose hold has expired -/

/-- What settling an expiry can do (R33): the told expiry of the LOST home of the serial's entry is taken, or nothing changes. -/
theorem State.settleExpiry_cases (s : State) (x : Serial) :
    (∃ p y t l o pin age, dirLookup s.directory x = some (p, { serial := y, body := .present t l o pin age }) ∧
      (s.slot t l).state = .lost ∧ (s.slot t l).expiry = .told ∧ s.settleExpiry x = s.takeExpiry t l) ∨
    s.settleExpiry x = s := by
  unfold State.settleExpiry
  split
  · rename_i p y t l o pin age h
    split
    · rename_i lost
      exact .inl ⟨p, y, t, l, o, pin, age, h, lost.1, lost.2, rfl⟩
    · exact .inr rfl
  · exact .inr rfl

/-! ## The shares of the excess pass -/

/-- The shares that fit are those of some pool no larger, or none where no pool tried fits (R86, R89). -/
theorem fittingShares_cases (o room : Nat) (shares : Nat → List PlanHome) (homes : List PlanHome) (fuel pool : Nat) :
    (∃ q, q ≤ pool ∧ homesSU o (shares q) ≤ room ∧ fittingShares o room shares homes fuel pool = shares q) ∨
    fittingShares o room shares homes fuel pool = homes := by
  induction fuel generalizing pool with
  | zero => exact .inr rfl
  | succ fuel ih =>
    rw [fittingShares]
    split
    · exact .inl ⟨pool, Nat.le_refl _, ‹_›, rfl⟩
    · rcases ih (pool - 5) with ⟨q, hq, fits, e⟩ | e
      · exact .inl ⟨q, by omega, fits, e⟩
      · exact .inr e

/-! ## The enrolment contexts -/

/-- The position of a line's context is the first that names it. -/
theorem Engine.positionOf_eq {e : Engine} {l : Line} {i : Fin 4} {c : Context} (h : e.contexts[i] = some c) (hl : c.line = l)
    (first : ∀ (j : Fin 4) d, j < i → e.contexts[j] = some d → d.line ≠ l) : e.positionOf l = some i := by
  have all : allContexts = [0, 1, 2, 3] := by decide
  unfold Engine.positionOf
  rw [all, List.find?_eq_some_iff_getElem]
  refine ⟨by simp [h, hl], i.val, i.isLt, by fin_cases i <;> rfl, fun j hji => ?_⟩
  have hj4 : j < 4 := by omega
  have at_ : ([0, 1, 2, 3] : List (Fin 4))[j] = ⟨j, hj4⟩ := by interval_cases j <;> rfl
  rw [at_]
  cases hc : e.contexts[(⟨j, hj4⟩ : Fin 4)] with
  | none => simp
  | some d => simpa using first ⟨j, hj4⟩ d hji hc

theorem Engine.contextOf_eq {e : Engine} {l : Line} {i : Fin 4} {c : Context} (h : e.contexts[i] = some c) (hl : c.line = l)
    (first : ∀ (j : Fin 4) d, j < i → e.contexts[j] = some d → d.line ≠ l) : e.contextOf l = some c := by
  rw [Engine.contextOf, Engine.positionOf_eq h hl first]
  exact h

end Sys2Proof.Machine
end

