-- ==== Sys2Proof/Laws/Journal.lean ====
section
/-! SUPPORT. The journal's shared operations, each said once: what starting a program, judging the condition and going on with a batch can change, and
what the journal reads find. -/

namespace Sys2Proof.Machine

/-! ## Requests -/

/-- A request whose meaning is its owner's part answers what that part gives, on a link that can hand it on. -/
theorem exec_request {c : Instr} {s : State} {h : Head} {k : ReqKind} {owner : State → State × Answer}
    (meaning : exec c s = s.live fun s => s.request h k owner) (hr : s.ready h k = true) :
    exec c s = .next ((owner (s.taken h k.byte)).1.answer h k (owner (s.taken h k.byte)).2) := by
  rw [meaning]
  simp only [State.live, (State.ready_cases hr).1, Bool.false_eq_true, if_false, State.request_ready _ hr]

@[simp] theorem State.taken_journalCursor (s : State) (h : Head) (k : Byte) (l : Link) :
    ((s.taken h k).link l).journalCursor = (s.link l).journalCursor := by
  unfold State.taken
  cases h.link <;> cases l <;> rfl

/-! ## What the conditions and the batch can change -/

/-- The condition R172 gives is the present one, FULL or STOPPED. -/
theorem Journal.judgedCondition_cases (j : Journal) (retry : Bool) :
    j.judgedCondition retry = j.condition ∨ j.judgedCondition retry = .full ∨ j.judgedCondition retry = .stopped := by
  unfold Journal.judgedCondition
  cases j.condition <;> simp only <;> (repeat' split) <;> simp

theorem Journal.someSector_iff (j : Journal) (st : SectorState) : j.someSector st = true ↔ ∃ k, j.stateOf k = st := by
  simp [Journal.someSector, allSectors]

theorem Journal.inReserve_iff {j : Journal} {w : Fin 32} (h : j.writeSector = some w) : j.inReserve = true ↔ j.onReserve w := by
  simp [Journal.inReserve, Journal.onReserve, Journal.erasedLeft, h, Journal.someSector, allSectors, Config.slotsPerSector]

theorem Journal.reserveBarred_iff (j : Journal) (retry : Bool) :
    j.reserveBarred retry = true ↔ retry = false ∧ ∀ k, j.stateOf k ≠ .full ∧ j.stateOf k ≠ .erasePending := by
  simp [Journal.reserveBarred, Journal.someSector, allSectors, and_assoc, forall_and]

/-- The condition judged of a READY or FULL journal is the one R172 gives. -/
theorem Journal.judgedCondition_ruled {j : Journal} (retry : Bool) (h : j.condition = .ready ∨ j.condition = .full) :
    j.ruledBy j.condition retry (j.judgedCondition retry) := by
  have e : j.judgedCondition retry =
      if 4294967295 ≤ j.next then .stopped
      else match j.writeSector with
        | none => if j.someSector .erasePending then .full else .stopped
        | some _ => if j.inReserve then (if j.reserveBarred retry then .stopped else .full) else j.condition := by
    unfold Journal.judgedCondition
    rcases h with h | h <;> simp only [h] <;> rfl
  rw [e]
  refine ⟨fun hn => if_pos hn, fun hn hw => ?_, fun w hn hw => ?_⟩
  · rw [if_neg (by omega), hw]
    refine ⟨fun hp => if_pos ((j.someSector_iff _).2 hp), fun hp => if_neg fun hq => ?_⟩
    obtain ⟨k, hk⟩ := (j.someSector_iff _).1 hq
    exact hp k hk
  · rw [if_neg (by omega), hw]
    refine ⟨fun hr => if_neg fun hq => hr ((Journal.inReserve_iff hw).1 hq), fun hr hm => ?_, fun hr hf hk => ?_⟩
    · show (if j.inReserve then _ else _) = _
      rw [if_pos ((Journal.inReserve_iff hw).2 hr), if_neg]
      intro hb
      obtain ⟨hf, hk⟩ := (j.reserveBarred_iff retry).1 hb
      rcases hm with hm | ⟨k, hm⟩
      · simp [hf] at hm
      · exact hm.elim (hk k).1 (hk k).2
    · show (if j.inReserve then _ else _) = _
      rw [if_pos ((Journal.inReserve_iff hw).2 hr), if_pos ((j.reserveBarred_iff retry).2 ⟨hf, hk⟩)]

/-- Judging the condition writes the condition and its cause, and raises notices (R172). -/
theorem State.judgeCondition_frame (s : State) :
    ∃ cause k, s.judgeCondition =
      { s with journal := { s.journal with condition := s.journal.judgedCondition s.meter.headIsRetry, cause := cause }, links := k } := by
  unfold State.judgeCondition
  simp only
  split
  · rename_i h
    rw [h]
    exact ⟨_, _, rfl⟩
  · rename_i ne
    rcases s.journal.judgedCondition_cases s.meter.headIsRetry with h | h | h
    · exact absurd h ne
    · rw [h]
      exact ⟨_, _, rfl⟩
    · rw [h]
      exact ⟨_, _, rfl⟩

/-- A program that starts or asks for a suspension changes the program operation, the batch and the suspends count, and who is at the head of the
close queue; nothing else (R168, R180). -/
theorem State.kick_frame (s : State) :
    ∃ p b n mark headMark held, s.kick =
      { s with journal := { s.journal with program := p, batch := b, suspends := n }
               meter := { s.meter with mark := mark, headMark := headMark, headHeld := held } } := by
  unfold State.kick
  have started : ∀ r k slot, ∃ p b n mark headMark held, s.startProgram r k slot =
      { s with journal := { s.journal with program := p, batch := b, suspends := n }
               meter := { s.meter with mark := mark, headMark := headMark, headHeld := held } } := by
    intro r k slot
    have head : ∃ mark headMark held, s.meter.holdHead =
        { s.meter with mark := mark, headMark := headMark, headHeld := held } := by
      unfold Meter.holdHead
      split
      · exact ⟨_, _, _, rfl⟩
      · split
        · exact ⟨_, _, _, rfl⟩
        · exact ⟨_, _, _, rfl⟩
    obtain ⟨mark, headMark, held, e⟩ := head
    refine ⟨some { record := r, seq := s.journal.next, sector := k, slot := slot }, s.journal.batch, s.journal.suspends, mark,
      headMark, held, ?_⟩
    simp only [State.startProgram, State.modMeter, State.modJournal, e]
  split
  · exact ⟨_, _, _, _, _, _, rfl⟩
  · split
    · exact started ..
    · exact started ..
    · exact started ..
    · exact ⟨_, _, _, _, _, _, rfl⟩
    · split
      · exact ⟨_, _, _, _, _, _, rfl⟩
      · exact ⟨_, _, _, _, _, _, rfl⟩

/-- Going on with a batch changes the batch alone (R178, R179). -/
theorem Journal.beginStep_frame (j : Journal) : ∃ b, j.beginStep = { j with batch := b } := by
  unfold Journal.beginStep
  split
  · exact ⟨_, rfl⟩
  · exact ⟨_, rfl⟩

/-- The program operation, the batch and the suspends count, and who is at the head of the close queue, may have changed; nothing else has. -/
def onlyPrograms (s u : State) : Prop :=
  ∃ p b n mark headMark held, u =
    { s with journal := { s.journal with program := p, batch := b, suspends := n }
             meter := { s.meter with mark := mark, headMark := headMark, headHeld := held } }

theorem onlyPrograms_refl (s : State) : onlyPrograms s s := ⟨_, _, _, _, _, _, rfl⟩

theorem onlyPrograms_trans {s u v : State} (h : onlyPrograms s u) (k : onlyPrograms u v) : onlyPrograms s v := by
  obtain ⟨_, _, _, _, _, _, rfl⟩ := h
  obtain ⟨p, b, n, mark, headMark, held, rfl⟩ := k
  exact ⟨p, b, n, mark, headMark, held, rfl⟩

theorem State.kick_only (s : State) : onlyPrograms s s.kick := s.kick_frame

theorem State.withBatch_only (s : State) (b : Batch) : onlyPrograms s (s.modJournal fun j => { j with batch := b }) :=
  ⟨s.journal.program, b, s.journal.suspends, _, _, _, rfl⟩

theorem State.beginStep_only (s : State) : onlyPrograms s (s.modJournal Journal.beginStep) := by
  obtain ⟨b, e⟩ := s.journal.beginStep_frame
  exact ⟨s.journal.program, b, s.journal.suspends, s.meter.mark, s.meter.headMark, s.meter.headHeld,
    by simp only [State.modJournal, e]⟩

/-- What follows the end of a program changes the program operation and the batch alone (R169, R178, R180). -/
theorem State.afterVerify_only (s : State) : onlyPrograms s s.afterVerify := by
  unfold State.afterVerify
  split
  · exact onlyPrograms_trans (s.withBatch_only { s.journal.batch with state := .erasing }) (State.kick_only _)
  · split
    · exact onlyPrograms_trans s.beginStep_only (State.kick_only _)
    · exact s.kick_only
  · exact s.kick_only
  · exact s.kick_only
  · exact s.kick_only

/-- What follows a timed-out program changes the program operation and the batch alone (R170, R178, R180). -/
theorem State.afterTimeout_only (s : State) : onlyPrograms s s.afterTimeout := by
  unfold State.afterTimeout
  split
  · simp only
    split
    · exact s.kick_only
    · exact onlyPrograms_trans s.kick_only (State.withBatch_only _ { s.kick.journal.batch with state := .erasing })
  · split
    · exact onlyPrograms_trans s.beginStep_only (State.kick_only _)
    · exact s.kick_only
  · exact s.kick_only
  · exact s.kick_only
  · exact s.kick_only

/-- A late verify leaves the journal as it is, or a slot that was BAD holds a whole copy of the record of a program that timed out there; it stays BAD
(R164, R168). -/
theorem Journal.lateVerify_cases (j : Journal) (sector : Fin 32) (slot : Nat) :
    j.lateVerify sector slot = j ∨
    ∃ p late before, p ∈ j.late ∧ p.into sector slot = true ∧
      storeGet j.array (slotKey sector slot) = some { state := .bad, contents := before } ∧
      j.lateVerify sector slot =
        { j with array := storePut j.array (slotKey sector slot) { state := .bad, contents := .whole p.seq p.record }, late := late } := by
  unfold Journal.lateVerify
  split
  · rename_i p before hp hc
    exact .inr ⟨p, _, before, List.mem_of_find?_eq_some hp, List.find?_some (p := fun q : Program => q.into sector slot) hp, hc, rfl⟩
  · exact .inl rfl

/-! ## What the journal reads find (R173, R174) -/

theorem lowestFrom_none {cursor : Nat} {cells : List (Nat × Nat × Record)} :
    lowestFrom cursor cells = none ↔ ∀ v ∈ cells, v.2.1 < cursor := by
  induction cells with
  | nil => simp [lowestFrom]
  | cons v rest ih =>
    simp only [lowestFrom, List.forall_mem_cons]
    cases h : lowestFrom cursor rest with
    | none =>
      have all := ih.mp h
      by_cases hv : cursor ≤ v.2.1
      · simp [hv]
      · simp only [if_neg hv, true_iff]
        exact ⟨Nat.lt_of_not_le hv, all⟩
    | some w =>
      have not_all : ¬ ∀ u ∈ rest, u.2.1 < cursor := fun all => by simp [ih.mpr all] at h
      by_cases hv : cursor ≤ v.2.1 ∧ v.2.1 < w.1
      · simp [hv]
      · simp [hv]
        intro _
        simpa using not_all

/-- The record found is the one of lowest number at or above the cursor. -/
theorem lowestFrom_some {cursor : Nat} {cells : List (Nat × Nat × Record)} {w : Nat × Record} (h : lowestFrom cursor cells = some w) :
    (∃ key, (key, w) ∈ cells) ∧ cursor ≤ w.1 ∧ ∀ v ∈ cells, cursor ≤ v.2.1 → w.1 ≤ v.2.1 := by
  induction cells generalizing w with
  | nil => simp [lowestFrom] at h
  | cons v rest ih =>
    simp only [lowestFrom] at h
    cases hr : lowestFrom cursor rest with
    | none =>
      have below := lowestFrom_none.mp hr
      rw [hr] at h
      simp only at h
      split at h
      · obtain rfl := Option.some.inj h
        refine ⟨⟨v.1, List.mem_cons_self⟩, by assumption, fun u hu hc => ?_⟩
        rcases List.mem_cons.mp hu with rfl | hu
        · exact Nat.le_refl _
        · exact absurd hc (Nat.not_le.mpr (below u hu))
      · simp at h
    | some x =>
      obtain ⟨⟨key, hk⟩, at_or_above, least⟩ := ih hr
      rw [hr] at h
      simp only at h
      split at h
      · rename_i both
        obtain rfl := Option.some.inj h
        refine ⟨⟨v.1, List.mem_cons_self⟩, both.1, fun u hu hc => ?_⟩
        rcases List.mem_cons.mp hu with rfl | hu
        · exact Nat.le_refl _
        · exact Nat.le_trans (Nat.le_of_lt both.2) (least u hu hc)
      · obtain rfl := Option.some.inj h
        refine ⟨⟨key, List.mem_cons_of_mem _ hk⟩, at_or_above, fun u hu hc => ?_⟩
        rcases List.mem_cons.mp hu with rfl | hu
        · omega
        · exact least u hu hc

/-- What a read returns: at most `n` valid records at or above the cursor, ascending, and none passed over (R173). -/
theorem readFrom_spec (cells : List (Nat × Nat × Record)) (n cursor : Nat) :
    (readFrom cells n cursor).length ≤ n ∧ (readFrom cells n cursor).Pairwise (fun x y => x.1 < y.1) ∧
      (∀ x ∈ readFrom cells n cursor, cursor ≤ x.1 ∧ ∃ key, (key, x.1, x.2) ∈ cells) ∧
      ∀ v ∈ cells, cursor ≤ v.2.1 → (∃ x ∈ readFrom cells n cursor, x.1 = v.2.1) ∨
        ((readFrom cells n cursor).length = n ∧ ∀ x ∈ readFrom cells n cursor, x.1 < v.2.1) := by
  induction n generalizing cursor with
  | zero => simp [readFrom]
  | succ n ih =>
    simp only [readFrom]
    cases h : lowestFrom cursor cells with
    | none =>
      have below := lowestFrom_none.mp h
      refine ⟨Nat.zero_le _, List.Pairwise.nil, fun x hx => by simp at hx, fun v hv hc => ?_⟩
      exact absurd hc (Nat.not_le.mpr (below v hv))
    | some w =>
      obtain ⟨found, at_or_above, least⟩ := lowestFrom_some h
      obtain ⟨short, rising, sound, complete⟩ := ih (w.1 + 1)
      refine ⟨Nat.succ_le_succ short, List.pairwise_cons.mpr ⟨fun y hy => (sound y hy).1, rising⟩, fun x hx => ?_, fun v hv hc => ?_⟩
      · rcases List.mem_cons.mp hx with rfl | hx
        · exact ⟨at_or_above, found⟩
        · exact ⟨by have := (sound x hx).1; omega, (sound x hx).2⟩
      · by_cases e : w.1 = v.2.1
        · exact .inl ⟨w, List.mem_cons_self, e⟩
        · have lt : w.1 < v.2.1 := Nat.lt_of_le_of_ne (least v hv hc) e
          rcases complete v hv lt with ⟨x, hx, hxe⟩ | ⟨full, all⟩
          · exact .inl ⟨x, List.mem_cons_of_mem _ hx, hxe⟩
          · refine .inr ⟨congrArg (· + 1) full, fun x hx => ?_⟩
            rcases List.mem_cons.mp hx with rfl | hx
            · exact lt
            · exact all x hx

end Sys2Proof.Machine
end

