-- ==== Sys2Proof/Tests/Slice0.lean ====
section
/-! SUPPORT. Tests: the well-formedness smoke, single commands on small states against the manual's worked cases and tables, and for every statement
with hypotheses a witness that meets them (`witness_` and the statement's name). -/

open Sys2Proof
open Sys2Proof.Machine

namespace Sys2Proof.Tests

-- The kernel checks these theorems one after another: each is a small evaluation, and many at once take many threads.
set_option Elab.async false

/-! ## Helpers -/

/-- The state after a command. -/
def after (c : Instr) (s : State) : State :=
  match exec c s with
  | .next t => t
  | .fault _ => s
  | .refused _ => s

/-- A request on the controller link, with tag 7. -/
def ctl (tree : Nat) : Head := { link := .controller, tag := 7, tree := tree }

/-- A request on the craft link. -/
def craft (tree : Nat) : Head := { link := .craft, tag := 0, tree := tree }

/-- The reply the controller link is sending. -/
def answered (s : State) : Option Reply :=
  match s.links.controller.sending with
  | some (.reply r) => some r
  | _ => none

/-- The code of that reply. -/
def code (s : State) : Option Code := (answered s).map (fun r => r.code)

/-- The clamped field of that reply. -/
def field (s : State) : Option Nat := (answered s).bind (fun r => r.field)

/-- The values of that reply. -/
def values (s : State) : Option Values := (answered s).map (fun r => r.values)

/-- The kinds of the notices that wait. -/
def noticeKinds (s : State) : List NoticeKind := s.links.notices.map (fun n => n.kind)

/-- A queue of `n` DISMISS messages. -/
def full (n : Nat) (T : TreeState) : TreeState :=
  { T with framer := { T.framer with urgent := List.replicate n (.dismiss 127), ordinary := [] } }

/-- Context position 0 of a tree holds `c`. -/
def withContext (c : Context) (T : TreeState) : TreeState := { T with engine := { T.engine with contexts := T.engine.contexts.set 0 (some c) } }

/-- Every context of a tree is busy with `c`. -/
def allBusy (c : Context) (T : TreeState) : TreeState := { T with engine := { T.engine with contexts := Vector.replicate 4 (some c) } }

/-- A service record of the default settings. -/
def record : ServiceRecord :=
  { live := { cr := 0, pr := 3125, ba := 0, tr := 312, w := 1, dw := 1 }, k := 0, b := 0, staged := {}, crEff := 0, prEff := 0,
    throttled := false }

/-- An open account of the serial 7. -/
def account : Account :=
  { serial := 7, start := 0, band := 0, clockUnset := true, merged := false, throttled := false, counts := {}, carries := {}, period := 0,
    quota := 0, warn := 7, quotaState := .normal }

/-- A home in a state, with its record and its account, linked to position 28. -/
def home (st : HomeState) : Slot := { Slot.free with state := st, link := some 28, service := some record, account := .opened account }

/-- The home of serial 7 (bucket 7, way 0) at tree 0, line 3, the slot as given and the rest of the tree changed by `f`. -/
def lone (x : Slot) (f : TreeState → TreeState := id) : State :=
  (State.reset.modTree 0 (fun T => f (T.modSlot 3 (fun _ => x)))).withDirectory
    [(28, { serial := 7, body := .present 0 3 .opened false none })]

/-- A context of line 3 in a phase. -/
def context (phase : Phase) : Context :=
  { serial := 7, line := 3, kind := .new, coarse := none, provisional := 622000, prior := none, attempts := 0, phase := phase,
    accepted := true, frame := some 5 }

/-- A packet of `n` bytes. -/
def packet (n : Nat) : Packet := List.replicate n 0

/-- A guard that was dark throughout. -/
def darkGuard : GuardLight := List.replicate 4 false

/-- A guard that light from elsewhere filled. -/
def litGuard : GuardLight := List.replicate 4 true

/-! ## Well-formed commands -/

/-- One ill-formed term for each check of a request, with its neighbour in range. -/
theorem wellFormed_requests :
    [Instr.identify (ctl 256), .identify { link := .craft, tag := 1, tree := 0 }, .identify (craft 17), .setClock (ctl 15) 65536 0,
      .setClock (ctl 15) 0 16777216, .setPermission (ctl 15) 256 true, .setTree (ctl 0) { di := some 65536 },
      .setTree (ctl 0) { hold := some 65536 }, .setTree (ctl 0) { reach := some 256 }, .setTree (ctl 0) { ert := some 65536 },
      .setTree (ctl 0) { overhead := some 256 }, .setTree (ctl 0) { statusInterval := some 256 }, .setTree (ctl 0) { rise := some 256 },
      .setTree (ctl 0) { fall := some 256 }, .setTree (ctl 0) { span := some 256 }, .setDefaultService (ctl 0) { cr := some 65536 },
      .setDefaultService (ctl 0) { pr := some 65536 }, .setDefaultService (ctl 0) { ba := some 16777216 },
      .setDefaultService (ctl 0) { tr := some 65536 }, .setDefaultService (ctl 0) { w := some 256 },
      .setDefaultService (ctl 0) { dw := some 256 }, .readDirectory (ctl 15) (some 65536), .readHome (ctl 0) 256, .dismissHome (ctl 0) 256,
      .setService (ctl 0) 256 {}, .setService (ctl 0) 0 { w := some 256 }, .readService (ctl 0) 256, .releaseHome (ctl 0) 256,
      .expelHome (ctl 0) 256, .setTariff (ctl 15) (List.replicate 256 { second := 0, band := 0 }),
      .setTariff (ctl 15) [{ second := 16777216, band := 0 }], .setTariff (ctl 15) [{ second := 0, band := 256 }],
      .setQuota (ctl 0) (some 256) none none, .setQuota (ctl 0) none (some 281474976710656) none, .setQuota (ctl 0) none none (some 256),
      .resetPeriod (ctl 0) (some 256), .readUsage (ctl 0) (some 256), .readBuffers (ctl 0) (some 256), .seekJournal (ctl 15) 4294967296,
      .exportDone (ctl 15) 4294967296, .unknownRequest (ctl 256) 0, .busyReply (ctl 256) 0].all (fun c => !c.wellFormed) = true ∧
    [Instr.identify (ctl 255), .identify (craft 16), .setClock (ctl 15) 65535 16777215, .setPermission (ctl 15) 255 true,
      .setTree (ctl 0) { di := some 65535, hold := some 65535, reach := some 255, ert := some 65535, overhead := some 255,
                         statusInterval := some 255, rise := some 255, fall := some 255, span := some 255 },
      .setDefaultService (ctl 0) { cr := some 65535, pr := some 65535, ba := some 16777215, tr := some 65535, w := some 255, dw := some 255 },
      .setService (craft 0) 70000 { w := some 70000 }, .readDirectory (ctl 15) (some 65535), .readHome (ctl 0) 255,
      .setTariff (ctl 15) [{ second := 16777215, band := 255 }], .setQuota (ctl 0) (some 255) (some 281474976710655) (some 255),
      .seekJournal (ctl 15) 4294967295].all (fun c => c.wellFormed) = true := by
  decide +kernel

/-- One ill-formed term for each check of an event, with its neighbour in range. -/
theorem wellFormed_events :
    [Instr.frameDiscarded (.badLength 0 3), .frameDiscarded (.badLength 3 255), .grantOutcome 0 0 (some { e := 321, guard := darkGuard, bytes := List.replicate 10 0 }),
      .grantOutcome 0 0 (some { e := 0, guard := darkGuard, bytes := List.replicate 11 0 }),
      .grantOutcome 0 0 (some { e := 0, guard := darkGuard, bytes := List.replicate 5 0 }), .overrun 0 0 [false, true, true] 100,
      .overrun 0 0 [] 100, .grantOutcome 0 0 (some { e := 0, guard := List.replicate 5 false, bytes := List.replicate 10 0 }),
      .rangingOutcome 0 0 (some { e := -5121, bytes := List.replicate 20 0 }), .rangingOutcome 0 0 (some { e := 0, bytes := List.replicate 19 0 }),
      .hello 0 28001 (List.replicate 20 0), .hello 0 0 (List.replicate 21 0), .receiveFrameEnd 0 [{ lo := 5, hi := 5 }],
      .receiveFrameEnd 0 [{ lo := 5, hi := 15626 }], .receiveFrameEnd 0 [{ lo := 5, hi := 5 }, { lo := 7, hi := 8 }],
      .receiveFrameEnd 0 [{ lo := 5, hi := 6 }, { lo := 6, hi := 7 }]].all (fun c => !c.wellFormed) = true ∧
    [Instr.frameDiscarded (.badLength 0 2), .frameDiscarded (.badLength 4 0), .grantOutcome 0 0 (some { e := -320, guard := darkGuard, bytes := List.replicate 10 0 }),
      .overrun 0 0 litGuard 100, .rangingOutcome 0 0 (some { e := 5120, bytes := List.replicate 20 0 }), .hello 0 28000 (List.replicate 20 0),
      .receiveFrameEnd 0 [{ lo := 5, hi := 6 }, { lo := 7, hi := 15625 }]].all (fun c => c.wellFormed) = true := by
  decide +kernel

/-! ## Steps, resets and links -/

/-- A state with one command of each of two kinds waiting, a directory entry and a journal cell. -/
def waiting : State :=
  { (State.reset.withDirectory [(28, { serial := 7, body := .expected none false })]).modJournal (fun j =>
      { j with array := [(3, { state := .written, contents := .blank })] }) with pending := [.barSerial (ctl 15) 7, .holdTree (ctl 2)] }

theorem witness_EveryStepKeepsTheStoresAndTheDirectoryLaw :
    waiting.storesWf = true ∧ waiting.directoryLawful ∧ step waiting = .next (after (.barSerial (ctl 15) 7) (waiting.withPending [.holdTree (ctl 2)])) ∧
      (after (.barSerial (ctl 15) 7) (waiting.withPending [.holdTree (ctl 2)])).directory = [(28, { serial := 7, body := .barred none })] := by
  refine ⟨by decide +kernel, ⟨by decide +kernel, ?_, ?_⟩, rfl, by decide +kernel⟩
  · show ∀ p ∈ [(28, _)], _
    decide +kernel
  · show List.Pairwise _ [(28, _)]
    decide +kernel

theorem witness_EveryStepKeepsQueuesListsAndCreditBounded :
    waiting.queuesBounded = true ∧ waiting.listsBounded = true ∧
      (State.reset.modTree 0 (full 64)).queuesBounded = true ∧ (State.reset.modTree 0 (full 65)).queuesBounded = false := by
  decide +kernel

/-- The lone home with a second event waiting to be taken and RESTART_PART answered: what a part reset does away with. -/
def used : State :=
  { lone (home .active) with resetDue := true, time := { Timebase.reset with frame := 4000, secondsDue := [4000] },
                             meter := { Meter.reset with clock := some { day := 1, second := 2 } } }

/-- R193, R196: POWER_ON, a low level of 1 µs and PART_RESET empty the part and hold it until RESET_END; nothing else is taken meanwhile. -/
theorem witness_ResetsHoldThePartUntilTheirEnd :
    used.inReset = false ∧ used.resetDue = true ∧ 1000 ≤ 1000 ∧ 999 < 1000 ∧
      [Instr.powerOn, .resetInput 1000, .partReset].all (fun c =>
        let s := after c used
        s.inReset && decide (s.slot 0 3 = Slot.free) && s.directory.isEmpty && s.time.secondsDue.isEmpty && s.meter.clock.isNone &&
          !(after .resetEnd s).inReset && decide ((after (.holdTree (ctl 0)) s).tree 0 = s.tree 0)) = true := by
  decide +kernel

/-- The reply of the request in hand, tag 7. -/
def replyInHand : Reply := { kind := 0x21, tag := 7, tree := 15, code := .done, field := none, values := .none, own := true }

/-- A BUSY reply to tag 8. -/
def busyReply8 : Reply := { replyInHand with kind := 0x22, tag := 8, code := .busy, own := false }

/-- The controller link sends the reply of the request in hand, and `n` BUSY replies wait. -/
def busy (n : Nat) : State :=
  { State.reset with links := { Links.reset with
      controller := { LinkState.reset with inHand := some 0x21, sending := some (.reply replyInHand), replies := List.replicate n busyReply8 } } }

/-- What a link has counted and the codes of the replies that wait on it. -/
def told (k : LinkState) : Nat × Nat × Nat × List Code := (k.busyAnswers, k.busyDiscards, k.denied, k.replies.map (fun r => r.code))

/-- R186, R187, R189: BUSY up to three replies, then discarded; DENIED on the craft link; BAD_FORM for an unknown kind and nine points. -/
theorem witness_ALinkRefusesWhatItCannotTake :
    let seek := Instr.seekJournal (ctl 15) 1
    (requestOf seek).isSome = true ∧ formGood (.restartPart (craft 15)) = true ∧ (busy 3).inReset = false ∧
      [2, 3].map (fun n => ((busy n).link .controller).replies.length) = [2, 3] ∧ ((busy 2).link .controller).inHand.isSome = true ∧
      State.reset.permitted .craft .restartPart = false ∧ (State.reset.link .craft).inHand = none ∧
      [seek, .busyReply (ctl 15) 0x22].all (fun c =>
        decide (told (after c (busy 3)).links.controller = (0, 1, 0, [.busy, .busy, .busy])) &&
          decide (told (after c (busy 2)).links.controller = (1, 0, 0, [.busy, .busy, .busy]))) = true ∧
      told (after (.unknownRequest (ctl 15) 0x26) (busy 2)).links.controller = (1, 0, 0, [.busy, .busy, .busy]) ∧
      told (after (.restartPart (craft 15)) State.reset).links.craft = (0, 0, 1, []) ∧
      [Instr.unknownRequest (ctl 15) 0x26, .setTariff (ctl 15) (List.replicate 9 { second := 0, band := 0 })].map
        (fun c => code (after c State.reset)) = [some .badForm, some .badForm] := by
  decide +kernel

/-- Two notices wait while the reply of tag 7 goes out and the BUSY reply of tag 8 waits (10.2, worked exchange). -/
def exchange : State :=
  let n := fun (k : NoticeKind) => ({ kind := k, tree := none, line := .none, count := 1, details := .none } : Notice)
  let s := busy 1
  { s with journal := { s.journal with condition := .ready }
           links := { s.links with tookReply := true, notices := [n .treeFull, n .holdLapsed] } }

/-- What the controller link is sending: the tag of a reply, or the kind of a notice. -/
def sends (s : State) : Option (Byte ⊕ NoticeKind) :=
  s.links.controller.sending.map (fun x => match x with | .reply r => .inl r.tag | .notice n => .inr n.kind)

/-- 10.2, worked exchange: after the reply of tag 7 the first notice goes, then the BUSY reply of tag 8, then the second notice. -/
theorem test_transmit_exchange :
    let one := after (.transmitComplete .controller) exchange
    let two := after (.transmitComplete .controller) one
    sends one = some (.inr .treeFull) ∧ one.links.controller.inHand = none ∧ sends two = some (.inl 8) ∧
      sends (after (.transmitComplete .controller) two) = some (.inr .holdLapsed) := by
  decide +kernel

/-- Every case of the arbiter, and the craft side. -/
theorem witness_TransmitSidesSendInTurn :
    let bare := { exchange with links := { exchange.links with controller := { exchange.links.controller with replies := [] } } }
    let none_ := { bare with links := { bare.links with notices := [] } }
    let first := { exchange with links := { exchange.links with tookReply := false } }
    let craftSends := fun (rs : List Reply) => { exchange with links := { exchange.links with
      craft := { LinkState.reset with inHand := some 0x21, sending := some (.reply replyInHand), replies := rs } } }
    exchange.inReset = false ∧ exchange.links.controller.sending = some (.reply replyInHand) ∧ exchange.links.craft.replies = [] ∧
      sends (after (.transmitComplete .controller) none_) = none ∧ sends (after (.transmitComplete .controller) bare) = some (.inr .treeFull) ∧
      sends (after (.transmitComplete .controller) (busy 1)) = some (.inl 8) ∧ sends (after (.transmitComplete .controller) first) = some (.inl 8) ∧
      (after (.transmitComplete .craft) (craftSends [])).links.craft.sending = none ∧
      (after (.transmitComplete .craft) (craftSends [busyReply8])).links.craft.sending = some (.reply busyReply8) ∧
      (after (.transmitComplete .craft) (craftSends [busyReply8])).links.craft.inHand = none := by
  decide +kernel

/-- IDENTIFY, READ_PERMISSION, SET_PERMISSION at codes 0, 38, 13 (ALLOW_SERIAL) and 5 (SET_PERMISSION itself), and RESTART_PART. -/
theorem witness_LinkRequestsAnswer :
    let s := State.reset
    [ReqKind.identify, .readPermission, .restartPart, .setPermission].all (s.ready (ctl 15)) = true ∧ s.ready (craft 15) .identify = true ∧
      code (after (.identify (ctl 15)) s) = some .done ∧ code (after (.readPermission (ctl 15)) s) = some .done ∧
      code (after (.setPermission (ctl 15) 0 true) s) = some .badValue ∧ code (after (.setPermission (ctl 15) 38 true) s) = some .badValue ∧
      ReqKind.allowSerial.code = 13 ∧ ReqKind.setPermission.code = 5 ∧ ReqKind.readBuffers.code = 37 ∧
      code (after (.setPermission (ctl 15) 5 true) s) = some .conflict ∧ (after (.setPermission (ctl 15) 13 true) s).permitted .craft .allowSerial = true ∧
      (after (.setPermission (ctl 15) 37 false) s).permitted .craft .readBuffers = false ∧
      (after (.transmitComplete .controller) (after (.restartPart (ctl 15)) s)).resetDue = true := by
  decide +kernel

/-- The controller link holds the bytes given after its marker. -/
def holding (rx : Option (List Byte)) : State := { State.reset with links := { Links.reset with frameRx := rx } }

/-- R184: lengths 2, 3, 1,023 and 1,024, a length byte A5h, the last byte but one of a frame, and the discards. -/
theorem witness_ReceiversGatherAndWrittenOutRequestsAreRead :
    let takes := fun (rx : Option (List Byte)) (b : Byte) =>
      ((after (.byteReceived .controller b) (holding rx)).links.frameRx, (after (.byteReceived .controller b) (holding rx)).links.discarded)
    takes none 0xA5 = (some [], 0) ∧ takes none 0x11 = (none, 0) ∧ takes (some []) 0 = (some [0], 0) ∧ takes (some [0]) 3 = (some [0, 3], 0) ∧
      takes (some [0]) 2 = (none, 1) ∧ takes (some [3]) 0xFF = (some [3, 0xFF], 0) ∧ takes (some [4]) 0 = (none, 1) ∧
      takes (some [0xA5]) 9 = (some [9], 1) ∧ takes (some [7]) 0xA5 = (some [], 1) ∧
      takes (some [0, 3, 1, 2, 3]) 9 = (some [0, 3, 1, 2, 3, 9], 0) ∧
      (after (.frameDiscarded (.badLength 0 2)) (holding (some [0]))).links.discarded = 1 ∧
      (after (.frameDiscarded .badCheck) (holding (some [0, 3]))).links.frameRx = none ∧
      (after .byteGapTimeout (holding (some []))).links.discarded = 1 ∧ (after .byteGapTimeout (holding none)).links.discarded = 0 ∧
      (after (.byteReceived .craft 0x41) State.reset).links.lineRx = [0x41] := by
  decide +kernel

/-- A READ_CLOCK frame written out from Table 1-8, its check 3E68h from R16 by hand, brings its request; with another check it is discarded. -/
theorem witness_FramesAndLinesBringWellFormedCommands :
    let frame : List Byte := [0xA5, 0x00, 0x03, 0x04, 0x07, 0x0F, 0x3E]
    let fed := fun (link : Link) (bytes : List Byte) => match feed link bytes State.reset with
      | .next s => s
      | _ => State.reset
    State.reset.inReset = false ∧ State.reset.links.frameRx = none ∧ State.reset.links.lineRx = [] ∧
      linkFrame 0x04 0x07 15 [] = frame ++ [0x68] ∧ (answered (fed .controller (frame ++ [0x68]))).map (fun r => (r.kind, r.tag)) = some (4, 7) ∧
      (fed .controller (frame ++ [0x69])).links.discarded = 1 ∧ 0x0A#8 ∉ ascii "READ_CLOCK" ∧ (ascii "READ_CLOCK").getLast? ≠ some 0x0D#8 ∧
      (fed .craft (ascii "READ_CLOCK" ++ [0x0D, 0x0A])).links.craft.inHand = some 4 := by
  decide +kernel

/-- R16: the check values of the nine digits, computed from the polynomials by hand. -/
theorem test_checks :
    check16 (ascii "123456789") = 0x29B1#16 ∧ check32 (ascii "123456789") = 0xFC891918#32 := by
  decide +kernel

/-- A full SET_TARIFF and an empty SET_SERVICE are well formed and stand for one kind. -/
theorem witness_RequestBodiesAreReadBack :
    let c := Instr.setTariff (ctl 15) (List.replicate 255 { second := 16777215, band := 255 })
    let d := Instr.setService (ctl 255) 255 {}
    [c, d].all (fun c => c.wellFormed && (requestOf c).isSome) = true ∧
      decodeFrame ReqKind.setService.byte 7 255 (requestBody d) = d := by
  decide +kernel

/-- A notice set of `n` entries for single lines of tree 1: HOME_LOST of every line at the top of its count, then HOME_GONE. -/
def noticeSet (n : Nat) : List Notice :=
  (List.range n).map (fun i =>
    if i < 128 then { kind := .homeLost, tree := some 1, line := .line (Fin.ofNat 128 i), count := 65535, details := .none }
    else { kind := .homeGone, tree := some 1, line := .line (Fin.ofNat 128 i), count := 1, details := .none })

/-- R190: a new single line with 184 and with 185 entries held, a repeat below and at 65,535, and a notice of the tree. -/
theorem witness_TheNoticeSetHoldsOneEntryPerKey :
    keysDistinct (noticeSet 184) ∧ keysDistinct (noticeSet 185) ∧
      let add := fun (n : Nat) (k : NoticeKind) (l : KeyLine) => addNotice (noticeSet n) k (some 1) l .none
      let last := fun (ns : List Notice) => (ns.length, ns.getLast?.map (fun x => (x.line, x.count)))
      last (add 184 .overrun (.line 0)) = (185, some (.line 0, 1)) ∧ last (add 185 .overrun (.line 0)) = (186, some (.all, 1)) ∧
        last (add 185 .treeFull .none) = (186, some (.none, 1)) ∧ add 185 .homeLost (.line 5) = noticeSet 185 ∧
        last (add 185 .homeGone (.line 56)) = (185, some (.line 56, 2)) := by
  refine ⟨?_, ?_, ?_⟩
  · show List.Pairwise _ _
    decide +kernel
  · show List.Pairwise _ _
    decide +kernel
  · decide +kernel

/-- One PRESENT home. -/
theorem witness_EveryStepKeepsTheDirectoryLinks :
    let s := (lone (home .active)).withPending [.dismissHome (ctl 0) 3]
    s.linksLawful ∧ ∃ u, step s = .next u ∧ u.directory = [] ∧ (u.slot 0 3).link = none := by
  have hget : ∀ p e, storeGet [(28, ({ serial := 7, body := .present 0 3 .opened false none } : DirEntry))] p = some e →
      p = 28 ∧ e = { serial := 7, body := .present 0 3 .opened false none } := by
    intro p e h
    by_cases hp : 28 = p <;> simp_all [storeGet]
  have hlinks : ∀ t l, (((lone (home .active)).slot t l).link = if t = 0 ∧ l = 3 then some 28 else none) ∧
      (((lone (home .active)).slot t l).state = .free → ((lone (home .active)).slot t l).link = none) := by
    decide +kernel
  refine ⟨⟨⟨by decide +kernel, by show ∀ p ∈ [(28, _)], _; decide +kernel, by show List.Pairwise _ [(28, _)]; decide +kernel⟩, ?_, ?_⟩,
    _, rfl, by decide +kernel, by decide +kernel⟩
  · intro p e t l o pin age h hb
    obtain ⟨rfl, rfl⟩ := hget p e h
    cases hb
    exact ((hlinks 0 3).1)
  · intro t l
    refine ⟨fun p h => ?_, (hlinks t l).2⟩
    have h' := (hlinks t l).1.symm.trans h
    split at h'
    · obtain ⟨rfl, rfl⟩ := ‹t = 0 ∧ l = 3›
      cases h'
      exact ⟨_, _, _, _, rfl, rfl⟩
    · cases h'

/-- One RANGING home with its context, on the ranging list; the search has started and verifies it. -/
def enrolling : State :=
  lone { home .ranging with muted := true } (fun T =>
    { withContext (context .rangeWait) T with
      framer := { T.framer with urgent := [] }, planner := { T.planner with rangingList := [3] }
      watch := { T.watch with rogue := .searching }
      search := { T.search with
        running := true, snapshot := [3], steps := 1
        test := some { kind := .verify, group := { lo := 0, hi := 1 }, step := 1, observing := true, retry := [], awaited := [], m := none, span := 16
                       counted := 16, lit := 0 } } })

theorem witness_EveryStepKeepsTheContextLaw :
    let s := enrolling.withPending [.frameStart 0]
    s.contextsLawful ∧ ∃ u, step s = .next u ∧ (u.tree 0).receiver.lists.map (fun a => a.grants.length) = [0] ∧
      (u.tree 0).planner.rangingList = [3] := by
  have hctx : ∀ (t : TreeId) (i : Fin 4), (enrolling.tree t).engine.contexts[i] = if t = 0 ∧ i = 0 then some (context .rangeWait) else none := by
    decide +kernel
  have hstate : ∀ (t : TreeId) (l : Line), (((enrolling.slot t l).state = .assigned ∨ (enrolling.slot t l).state = .ranging) ↔ t = 0 ∧ l = 3) ∧
      ((enrolling.slot t l).state = .free ↔ (enrolling.slot t l).link = none) := by
    decide +kernel
  have hlists : ∀ t : TreeId, (enrolling.tree t).planner.rangingList = (if t = 0 then [3] else []) ∧
      (enrolling.tree t).planner.verifyList = [] ∧ (enrolling.tree t).search.pending = [] := by
    decide +kernel
  have hbinds : ∀ (t : TreeId) (l : Line), (enrolling.tree t).engine.binds l ↔ t = 0 ∧ l = 3 := by
    intro t l
    constructor
    · rintro ⟨i, c, h, rfl⟩
      rw [hctx t i] at h
      split at h
      · cases h
        exact ⟨‹t = 0 ∧ i = 0›.1, rfl⟩
      · cases h
    · rintro ⟨rfl, rfl⟩
      exact ⟨0, context .rangeWait, hctx 0 0, rfl⟩
  refine ⟨fun t => ⟨fun i j c d hi hj _ => ?_, fun l => (hbinds t l).trans (hstate t l).1.symm, ?_, fun l hl => ?_, ?_, fun l hl => ?_, fun l hl => ?_,
    fun l => (hstate t l).2⟩, _, rfl, by decide +kernel, by decide +kernel⟩
  · have hi' := (hctx t i).symm.trans hi
    have hj' := (hctx t j).symm.trans hj
    split at hi' <;> split at hj' <;> simp_all
  · show (enrolling.tree t).planner.rangingList.Nodup
    rw [(hlists t).1]
    split <;> decide
  · change l ∈ (enrolling.tree t).planner.rangingList at hl
    rw [(hlists t).1] at hl
    refine (hbinds t l).2 ?_
    split at hl
    · exact ⟨‹t = 0›, by simpa using hl⟩
    · cases hl
  · show (enrolling.tree t).planner.verifyList.Nodup
    rw [(hlists t).2.1]
    exact List.nodup_nil
  · change l ∈ (enrolling.tree t).planner.verifyList at hl
    rw [(hlists t).2.1] at hl
    cases hl
  · change l ∈ (enrolling.tree t).search.pending at hl
    rw [(hlists t).2.2] at hl
    cases hl

theorem witness_EveryStepKeepsTheSearchLaw :
    let s := enrolling.withPending [.spanEnd 0]
    s.searchesLawful ∧ (s.tree 0).search.running = true ∧
      ∃ u, step s = .next u ∧ (u.tree 0).search.running = true ∧ (u.tree 0).search.test.map (fun x => (x.kind, x.group)) = some (.single, { lo := 0, hi := 1 }) := by
  have hrun : ∀ t : TreeId, ((enrolling.tree t).search.running = true ↔ (enrolling.tree t).watch.rogue = .searching) ∧
      ((enrolling.tree t).search.running = true ↔ (enrolling.tree t).search.test.isSome = true) ∧ (enrolling.tree t).search.stack = [] ∧
      (enrolling.tree t).engine.window = none ∧ (enrolling.tree t).search.snapshot.length = (if t = 0 then 1 else 0) ∧
      (enrolling.tree t).search.test.map (fun x => (x.kind, x.group)) = if t = 0 then some (.verify, { lo := 0, hi := 1 }) else none := by
    decide +kernel
  refine ⟨fun t => ?_, rfl, _, rfl, by decide +kernel, by decide +kernel⟩
  show (enrolling.tree t).searchLawful
  obtain ⟨h1, h2, hstack, hw, hsize, ht⟩ := hrun t
  refine ⟨h1, h2, fun _ => hstack, fun _ w h => by simp [hw] at h, ?_, ?_, fun x hx => ?_⟩
  · rw [hsize]
    split <;> decide
  · rw [hstack]
    trivial
  · rw [hx] at ht
    split at ht
    · simp only [Option.map_some, Option.some.injEq, Prod.mk.injEq] at ht
      obtain rfl := ‹t = 0›
      simp [Test.groupLawful, ht.1, ht.2, hstack, hsize]
    · simp at ht

theorem witness_EveryStepKeepsTheNoticeLaw :
    let s : State := { State.reset with
      pending := [.scanComplete], journal := { State.reset.journal with condition := .scanning }
      links := { Links.reset with notices := [{ kind := .homeLost, tree := some 1, line := .all, count := 65535, details := .none },
        { kind := .outOfReach, tree := some 1, line := .none, count := 1, details := .none }] } }
    s.noticesLawful ∧ ∃ u, step s = .next u ∧ noticeKinds u = [.homeLost, .outOfReach] ∧ sends u = some (.inr .partReady) := by
  refine ⟨⟨?_, ?_, by decide +kernel, fun _ => ?_⟩, _, rfl, by decide +kernel, by decide +kernel⟩
  · show List.Pairwise _ _
    decide +kernel
  · unfold Notice.keyLawful
    decide +kernel
  · decide +kernel

/-! ## The serial directory -/

/-- The part with the serial 7 in way 0 of its bucket. -/
def listed (b : DirBody) : State := State.reset.withDirectory [(28, { serial := 7, body := b })]

/-- The bodies the directory holds. -/
def bodies (s : State) : List (Nat × DirBody) := s.directory.map (fun p => (p.1, p.2.body))

/-- Bucket 7 with every way EXPECTED: the byte sums of 7, 106h, 205h and 304h are all 7, as is that of 403h. -/
def fullBucket : State := State.reset.withDirectory
  [(28, { serial := 7, body := .expected none false }), (29, { serial := 0x106, body := .expected none false }),
   (30, { serial := 0x205, body := .expected none false }), (31, { serial := 0x304, body := .expected none false })]

/-- 2.4: the bucket after step 4 of the worked sequence, with the serials S1 to S4. -/
def bucket44 : State := State.reset.withDirectory
  [(176, { serial := 0x001A2B3C4D5E, body := .expected (some 1) false }), (177, { serial := 0x0000000A0022, body := .refused 1 10 }),
   (178, { serial := 0x000000000C20, body := .refused 2 4 }), (179, { serial := 0x00000001002B, body := .expected none false })]

/-- 2.4, steps 5 and 6: S5 evicts S2, the oldest REFUSED entry; then S2 is barred in the way of S3. -/
theorem test_bucket_evicts :
    dirPlace bucket44.directory 0x000000050027 (.refused 2 0) =
      some [(176, { serial := 0x001A2B3C4D5E, body := .expected (some 1) false }), (177, { serial := 0x000000050027, body := .refused 2 0 }),
            (178, { serial := 0x000000000C20, body := .refused 2 4 }), (179, { serial := 0x00000001002B, body := .expected none false })] ∧
    (after (.barSerial (ctl 15) 0x0000000A0022) (bucket44.withDirectory (storePut bucket44.directory 177 { serial := 0x000000050027, body := .refused 2 0 }))
      ).directory[2]? = some (178, { serial := 0x0000000A0022, body := .barred none }) := by
  decide +kernel

theorem witness_DirectoryRequestsActOnTheEntriesFound :
    let held := listed (.present 0 3 .opened false (some 5))
    [ReqKind.allowSerial, .disallowSerial, .barSerial, .pinSerial].all (State.reset.ready (ctl 15)) = true ∧
      dirLookup fullBucket.directory 0x403 = none ∧ dirWay fullBucket.directory 0x403 = none ∧ dirWay [] 7 = some 28 ∧
      dirLookup held.directory 7 = some (28, { serial := 7, body := .present 0 3 .opened false (some 5) }) ∧
      [Instr.allowSerial (ctl 4) 7, .allowSerial (ctl 14) 7, .allowSerial (ctl 16) 7].all (fun c => code (after c State.reset) = some .badValue) = true ∧
      [fullBucket].all (fun s => [Instr.allowSerial (ctl 15) 0x403, .barSerial (ctl 15) 0x403].all (fun c => code (after c s) = some .full)) = true ∧
      bodies (after (.allowSerial (ctl 3) 7) State.reset) = [(28, .expected (some 3) false)] ∧
      bodies (after (.allowSerial (ctl 0) 7) (listed (.refused 1 63))) = [(28, .expected (some 0) false)] ∧
      bodies (after (.allowSerial (ctl 15) 7) (listed (.expected (some 2) true))) = [(28, .expected none true)] ∧
      bodies (after (.allowSerial (ctl 1) 7) held) = [(28, .present 0 3 (.listed (some 1)) false (some 5))] ∧
      code (after (.allowSerial (ctl 15) 7) (listed (.barred none))) = some .conflict ∧
      code (after (.disallowSerial (ctl 15) 7) State.reset) = some .notFound ∧ bodies (after (.disallowSerial (ctl 15) 7) (listed (.barred none))) = [] ∧
      bodies (after (.disallowSerial (ctl 15) 7) (listed (.present 0 3 (.listed none) true none))) = [(28, .present 0 3 .opened true none)] := by
  decide +kernel

theorem witness_DirectoryRequestsActOnTheEntriesFound_bar_and_pin :
    let held := listed (.present 0 3 .opened false (some 5))
    [Instr.barSerial (ctl 15) 7].all (fun c =>
        decide (bodies (after c State.reset) = [(28, .barred none)]) && decide (bodies (after c (listed (.expected none true))) = [(28, .barred none)]) &&
          decide (bodies (after c (listed (.refused 0 3))) = [(28, .barred none)]) &&
          decide (bodies (after c (listed (.barred (some 3)))) = [(28, .barred (some 3))]) && decide (code (after c held) = some .conflict)) = true ∧
      [Instr.pinSerial (ctl 15) 7 true].all (fun c =>
        decide (code (after c State.reset) = some .notFound) && decide (bodies (after c (listed (.expected none false))) = [(28, .expected none true)]) &&
          decide (bodies (after c held) = [(28, .present 0 3 .opened true (some 5))]) &&
          [DirBody.refused 0 3, .barred none].all (fun b => decide (code (after c (listed b)) = some .conflict))) = true := by
  decide +kernel

/-- Entries in way 0 of the buckets 0 to n - 1. -/
def manyEntries (n : Nat) : State :=
  State.reset.withDirectory ((List.range n).map (fun i => (4 * i, { serial := BitVec.ofNat 48 i, body := .expected none false })))

/-- R38: the start named at 1,024 and above, the cursor of the link, and 16 and 17 entries on the controller link. -/
theorem witness_DirectoryRequestsActOnTheEntriesFound_read :
    let read := fun (start : Option Nat) (n : Nat) => after (.readDirectory (ctl 15) start) (manyEntries n)
    State.reset.ready (ctl 15) .readDirectory = true ∧ (manyEntries 17).directory.length = 17 ∧
      ((read none 17).links.controller.dirCursor, (read none 16).links.controller.dirCursor) = (61, 1024) ∧
      values (read (some 60) 17) = some (.directory [(60, { serial := 15, body := .expected none false }), (64, { serial := 16, body := .expected none false })] 1024) ∧
      code (read (some 1024) 1) = some .done ∧ code (read (some 1025) 1) = some .clamped ∧ field (read (some 1025) 1) = some 1 ∧
      (after (.readDirectory (craft 0) none) (manyEntries 5)).links.craft.dirCursor = 13 := by
  decide +kernel

theorem witness_PlacingFollowsTheWaysOfTheBucket :
    bucketOf 0x001A2B3C4D5E = 44 ∧ bucketOf 0x0000000A0022 = 44 ∧ dirLookup bucket44.directory 0x00000001002B = some (179, { serial := 0x00000001002B, body := .expected none false }) ∧
      dirLookup bucket44.directory 0x000000050027 = none ∧ dirWay bucket44.directory 0x000000050027 = some 177 ∧ dirWay [] 0x000000050027 = some 176 ∧
      dirWay fullBucket.directory 0x403 = none ∧
      dirWay [(28, { serial := 7, body := .refused 0 9 }), (29, { serial := 0x106, body := .refused 0 9 }), (30, { serial := 0x205, body := .barred none }),
              (31, { serial := 0x304, body := .refused 0 8 })] 0x403 = some 28 := by
  decide +kernel

/-- A second event has fallen; one entry of each kind stands at the edge of its ageing. -/
def ageing : State :=
  { (State.reset.modTree 0 (fun T => T.modSlot 3 (fun _ => { Slot.free with state := .lost, link := some 28 }))).withDirectory
      [(28, { serial := 7, body := .present 0 3 .opened false (some 119) }), (32, { serial := 8, body := .refused 0 62 }),
       (36, { serial := 9, body := .refused 0 63 }), (40, { serial := 10, body := .barred (some 63) }), (44, { serial := 11, body := .barred (some 64) })]
    with time := { Timebase.reset with frame := 4000, secondsDue := [4000] }, meter := { Meter.reset with clock := some { day := 65535, second := 86399 } } }

/-- R32, R33: the second is counted, the clock passes the end of its last day, and every entry ages. -/
theorem witness_SecondEventsAgeTheDirectoryAndExpiriesAreTaken :
    let t := after .secondEvent ageing
    let gone := fun (e : Expiry) (held : List Line) (n : Nat) => ageing.modTree 0 (fun T => full n
      { T.modSlot 3 (fun x => { x with expiry := e }) with engine := { T.engine with dismissHeld := held } })
    ageing.inReset = false ∧ ageing.storesWf = true ∧ ageing.time.secondsDue = [4000] ∧ ageing.meter.schedule = [] ∧
      t.time.seconds = 1 ∧ t.time.secondsDue = [] ∧ t.meter.clock = some { day := 0, second := 0 } ∧
      bodies t = [(28, .present 0 3 .opened false (some 120)), (32, .refused 0 63), (40, .barred (some 64)), (44, .barred (some 64))] ∧
      (t.slot 0 3).expiry = .told ∧ bodies (after (.refusedEntryExpiry 9) ageing) = bodies (ageing.withDirectory (storeDel ageing.directory 36)) ∧
      (ageing.slot 0 3).state = .lost ∧
      [(after (.holdExpiry 0 3) (gone .told [] 64)), (after (.holdExpiry 0 3) (gone .told [3] 63)), (after (.holdExpiryRetry 0 3) (gone .waits [3] 63))].all
        (fun u => decide ((u.slot 0 3).state = .free) && decide (noticeKinds u = [.homeGone])) = true ∧
      (after (.holdExpiry 0 3) (gone .told [3] 64)).slot 0 3 = { ageing.slot 0 3 with expiry := .waits } ∧
      (let lowered := (lone (home .lost)).withDirectory [(28, { serial := 7, body := .present 0 3 .opened false (some 121) })]
       lowered.ready (ctl 0) .readHome = true ∧
       (match values (after (.readHome (ctl 0) 3) lowered) with
        | some (.home v) => decide (v.holdLeft = some 0)
        | _ => false) = true) := by
  decide +kernel

/-! ## The home table and the enrolment engine -/

theorem witness_ReadHomeGivesTheSlot :
    let s := lone { home .lost with eqd := 621983 }
    let read := fun (tree line : Nat) (s : State) => after (.readHome (ctl tree) line) s
    s.ready (ctl 0) .readHome = true ∧ [(4, 0), (15, 0), (0, 128)].all (fun p => code (read p.1 p.2 s) = some .badValue) = true ∧
      code (read 3 127 s) = some .done ∧
      (match values (read 0 3 (s.withDirectory [(28, { serial := 7, body := .present 0 3 .opened false (some 119) })])) with
        | some (.home v) => decide (v.serial = some 7) && decide (v.eqd = 621983) && decide (v.holdLeft = some 1) && !v.closeDue
        | _ => false) = true := by
  decide +kernel

theorem witness_DismissalQueuesTheDismissAndFreesTheSlot :
    let s := fun (n : Nat) => lone (home .active) (full n)
    let both := fun (p : Instr → Bool) (tree line : Nat) => p (.dismissHome (ctl tree) line) && p (.expelHome (ctl tree) line)
    (s 63).ready (ctl 0) .dismissHome = true ∧ (s 63).ready (ctl 0) .expelHome = true ∧ ((s 63).tree 0).framer.count = 63 ∧
      [(4, 3), (15, 3), (0, 128)].all (fun p => both (fun c => code (after c (s 63)) = some .badValue) p.1 p.2) = true ∧
      both (fun c => code (after c (s 63)) = some .conflict) 0 127 = true ∧ both (fun c => code (after c (s 64)) = some .busy) 0 3 = true ∧
      both (fun c => code (after c (s 63)) = some .done && ((after c (s 63)).slot 0 3).state = .free) 0 3 = true ∧
      bodies (after (.dismissHome (ctl 0) 3) (s 63)) = [] ∧ bodies (after (.expelHome (ctl 0) 3) (s 63)) = [(28, .barred none)] := by
  decide +kernel

/-- A close queue of `n` records. -/
def queued (n : Nat) (s : State) : State :=
  { s with meter := { s.meter with queue := List.replicate n (recordOf account 1 0 .interval false none) } }

/-- R21: the hand-offs of a slot in each account position, with a close queue of 1,023 and 1,024 records, and each cause on a LISTED entry. -/
theorem witness_FreeingASlotHandsItOff :
    let messages : List LineMsg := [.assign 7 3, .delay 3 0 .final, .call 0 0 9, .delay 4 0 .final]
    let s := lone (home .ranging) (fun T => withContext (context .rangeWait) { T with framer := { T.framer with urgent := [.dismiss 3, .mute 3 none], ordinary := messages } })
    let u := (queued 1023 s).freeSlot 0 3 .left
    let v := (queued 1024 s).freeSlot 0 3 .treeRestart
    let listed := fun (c : FreeCause) => bodies ((s.withDirectory [(28, { serial := 7, body := .present 0 3 (.listed (some 2)) true none })]).freeSlot 0 3 c)
    (s.slot 0 3).account = .opened account ∧ account.carries = {} ∧ (s.slot 0 3).link = some 28 ∧ (s.tree 0).engine.contexts[(0 : Fin 4)] = some (context .rangeWait) ∧
      (u.tree 0).framer.urgent = [.dismiss 3] ∧ (u.tree 0).framer.ordinary = [.call 0 0 9, .delay 4 0 .final] ∧ (u.tree 0).engine.contexts[(0 : Fin 4)] = none ∧
      (u.slot 0 3).account = .empty ∧ u.meter.queue.getLast?.map (fun r => r.kind) = some .final ∧ u.meter.queue.length = 1024 ∧
      v.meter.due = [(0, 3)] ∧ v.meter.dueCloses = 1 ∧ (v.slot 0 3).account = .due (recordOf account 0 3 .treeRestart false none) none ∧
      [FreeCause.left, .moved, .expelled, .treeRestart].map listed = [[(28, .expected (some 2) true)], [(28, .present 0 3 (.listed (some 2)) true none)],
        [(28, .barred none)], [(28, .expected (some 2) true)]] ∧ bodies u = [] := by
  decide +kernel

/-- R17: an account with carries closes as two records, with 1,022, 1,023 and 1,024 records waiting. -/
theorem witness_FreeingASlotHandsItOff_carries :
    let a := { account with carries := { up := 1 } }
    let u := fun (n : Nat) => (queued n (lone { home .active with account := .opened a })).freeSlot 0 3 .left
    let r := recordOf a 0 3 .final false none
    let r2 := { r with counts := { up := 1 } }
    a.carries ≠ {} ∧ [1022, 1023, 1024].map (fun n => ((u n).meter.queue.drop n, (u n).meter.due, ((u n).slot 0 3).account)) =
      [([r, r2], [], .empty), ([r], [(0, 3)], .due r2 none), ([], [(0, 3)], .due r (some r2))] := by
  decide +kernel

/-- R135: the packets of a freed queue, up to the counter's top, and a turn open on the freed slot and on another. -/
theorem witness_FreeingASlotHandsItOff_flushed :
    let out := fun (flushed : Nat) (rotation : Line) =>
      ((lone { home .active with queue := [packet 64, packet 65] } (fun T =>
        { T with traffic := { T.traffic with flushed := flushed, rotation := rotation, openTurn := true } })).freeSlot 0 3 .left).tree 0
    [out 4294967292 3, out 4294967294 4].map (fun T => (T.traffic.flushed, T.traffic.rotation, T.traffic.openTurn)) =
      [(4294967294, 3, false), (4294967295, 4, true)] := by
  decide +kernel

/-- Frame 1,000 has started on tree 0, the schedule counter stands at DI = 64, and `n` messages wait. -/
def opening (n : Nat) (f : TreeState → TreeState := id) : State :=
  ({ State.reset with time := { Timebase.reset with frame := 1000 } }).modTree 0 (fun T =>
    f (full n { T with started := true, engine := { T.engine with counter := 64 } }))

/-- The window of the worked ranging (3.4). -/
def window (opened : Bool) : Window := { target := 1002, reach := 40, ert := 28000, opened := opened }

/-- 3.4, first row: the CALL for target 1,002 with offset 25,000 and length 28,128; and a SCHEDULED window. -/
theorem test_discovery_worked :
    let s := after (.discoveryWindowOpen 0) (opening 0)
    (s.tree 0).framer.ordinary = [.call 25000 28128 1002] ∧ (s.tree 0).engine.counter = 0 ∧ (s.tree 0).engine.window = some (window false) ∧
      (s.tree 0).planner.quiet = some (1002, 28128) := by
  decide +kernel

theorem witness_DiscoveryWindowsAreScheduled :
    let refusedW := fun (n target : Nat) => opening n (fun T => { T with engine := { T.engine with refusedCall := some { window false with target := target } } })
    let engineOf := fun (s : State) => ((s.tree 0).engine.window.isSome, (s.tree 0).engine.refusedCall.isSome, (s.tree 0).engine.opened, (s.tree 0).engine.skipped)
    (opening 63).inReset = false ∧ (opening 63).lastStarted 0 = some 1000 ∧ ((opening 63).tree 0).windowDue = true ∧
      engineOf (after (.discoveryWindowOpen 0) (opening 63)) = (true, false, 1, 0) ∧ engineOf (after (.discoveryWindowOpen 0) (opening 64)) = (false, true, 0, 0) ∧
      engineOf (after (.discoveryWindowOpen 0) (opening 63 (fun T => { T with engine := { T.engine with counter := 63 } }))) = (false, false, 0, 0) ∧
      engineOf (after (.callReoffer 0) (refusedW 63 1001)) = (true, false, 1, 0) ∧ engineOf (after (.callReoffer 0) (refusedW 64 1001)) = (false, false, 0, 1) ∧
      engineOf (after (.callReoffer 0) (refusedW 0 1000)) = (false, false, 0, 1) ∧
      engineOf (after (.quietWindowEnd 0) (opening 0 (fun T => { T with engine := { T.engine with window := some (window true) } }))) = (false, false, 0, 0) := by
  decide +kernel

/-- The 20 bytes of a hello (R15) of the serial, delay and prior-line byte given. -/
def helloBytes (x d prior : Nat) : List Byte :=
  let b := bytesOf 6 x ++ bytesOf 2 d ++ bytesOf 1 prior ++ List.replicate 7 0
  b ++ bytesOf 4 (check32 b).toNat

/-- An OPEN window on tree 0, the tree changed by `f`, the directory as given. -/
def hearing (d : List (Nat × DirEntry)) (f : TreeState → TreeState := id) : State :=
  (State.reset.modTree 0 (fun T => f { T with engine := { T.engine with window := some (window true) } })).withDirectory d

/-- 3.4: the hello of S1 at offset 10,684 with d = 1,234, its check by hand; line 9 is the lowest available. -/
theorem test_hello_worked :
    let s := hearing [(176, { serial := 0x001A2B3C4D5E, body := .expected (some 0) false })]
      (fun T => T.mapSlots (fun l x => if l.val < 9 then { x with state := .active } else x))
    let u := after (.hello 0 10684 [0, 0x1A, 0x2B, 0x3C, 0x4D, 0x5E, 0x04, 0xD2, 0xFF, 0, 0, 0, 0, 0, 0, 0, 0x0D, 0x93, 0xAC, 0x3C]) s
    (u.tree 0).engine.contexts[(0 : Fin 4)] =
      some { serial := 0x001A2B3C4D5E, line := 9, kind := .new, coarse := some 12450, provisional := 622000, prior := none, attempts := 0
             phase := .delayWait, accepted := true, frame := none } ∧
    (u.tree 0).framer.ordinary = [.assign 0x001A2B3C4D5E 9, .delay 9 622000 .provisional] ∧ (u.slot 0 9).state = .assigned ∧
    bodies u = [(176, .present 0 9 (.listed (some 0)) false none)] := by
  decide +kernel

/-- What the engine of tree 0 has counted: taken, collisions, deferred. -/
def heard (s : State) : Nat × Nat × Nat := ((s.tree 0).engine.taken, (s.tree 0).engine.collisions, (s.tree 0).engine.deferred)

/-- R44 to R46: a hello that ends at Q and one that ends after it; delays 3,000 and 3,001; coarse round trips -1, 0, ERT and ERT + 1. -/
theorem witness_HellosThatAreNotUsed :
    let s := hearing []
    let hello := fun (offset d : Nat) (s : State) => after (.hello 0 offset (helloBytes 7 d 255)) s
    let other := fun (w : Window) => s.modTree 0 (fun T => { T with engine := { T.engine with window := some w } })
    let searching := s.modTree 0 (fun T => { T with search := { T.search with running := true } })
    s.inReset = false ∧ goodBurstCheck (helloBytes 7 3000 255) = true ∧ (helloBytes 7 3000 255).length = 20 ∧
      natOf (((helloBytes 7 3000 255).drop 6).take 2) = 3000 ∧
      [hello 28001 3000 s, hello 5000 0 (other (window false)), after (.hello 0 5000 ((helloBytes 7 0 255).take 19)) s, hello 5000 0 State.reset].map heard =
        [(0, 0, 0), (0, 0, 0), (0, 0, 0), (0, 0, 0)] ∧
      [hello 28000 3000 s, hello 5000 3001 s, after (.hello 0 5000 (List.replicate 20 9)) s, hello 0 3000 (other { window true with ert := 27999 }),
        hello 0 3000 s, hello 5000 0 searching].map heard = [(1, 0, 0), (0, 1, 0), (0, 1, 0), (0, 1, 0), (1, 0, 0), (0, 0, 1)] ∧
      noticeKinds (hello 25000 0 s) = [.serialRefused] ∧ noticeKinds (hello 25001 0 s) = [.outOfReach] ∧
      (hello 25001 0 (s.withDirectory [(28, { serial := 7, body := .present 0 3 .opened false none })])).links.notices.map (fun n => n.line) = [.line 3] := by
  decide +kernel

/-- R47, R48, R51: the entries on which a hello enrols no one, at the ages 63, 64 and none of a BARRED entry. -/
theorem witness_HellosThatAreNotUsed_by_entry :
    let hello := fun (b : DirBody) (f : State → State) => after (.hello 0 5000 (helloBytes 7 0 255)) (f (hearing [(28, { serial := 7, body := b })]))
    let raised := fun (s : State) => s.raise .serialRefused (some 0) .none (.serial 9)
    let at_ := fun (t : TreeId) (x : Slot) (s : State) => s.modSlot t 3 (fun _ => x)
    noticeKinds (hello (.barred none) id) = [.serialRefused] ∧ bodies (hello (.barred none) id) = [(28, .barred (some 0))] ∧
      noticeKinds (hello (.barred (some 64)) id) = [.serialRefused] ∧ noticeKinds (hello (.barred (some 63)) id) = [] ∧
      noticeKinds (hello (.refused 0 5) id) = [] ∧ (hello (.refused 0 5) raised).links.notices.map (fun n => n.count) = [2] ∧
      ((hello (.present 0 3 .opened false none) (at_ 0 (home .quarantined))).slot 0 3).state = .quarantined ∧
      [hello (.present 1 3 .opened false none) (at_ 1 (home .active)), hello (.present 1 3 (.listed none) true none) (at_ 1 (home .lost)),
        hello (.present 1 3 .opened false none) (at_ 1 (home .lost)), hello (.present 1 3 (.listed (some 2)) false none) (at_ 1 (home .lost))].all
        (fun s => noticeKinds s = [.serialElsewhere]) = true := by
  decide +kernel

/-- R46: beyond the reach by one, an entry of each kind: the notice names no line but that of a home of this tree, and no entry changes. -/
theorem witness_HellosThatAreNotUsed_out_of_reach :
    let entries : List DirBody :=
      [.expected none false, .refused 0 62, .barred none, .barred (some 64), .present 1 3 .opened false none, .present 0 3 .opened false none]
    let hello := fun (b : DirBody) => after (.hello 0 25001 (helloBytes 7 0 255)) (hearing [(28, { serial := 7, body := b })])
    entries.map (fun b => (hello b).links.notices.map (fun n => n.line)) = [[.none], [.none], [.none], [.none], [.none], [.line 3]] ∧
      entries.map (fun b => bodies (hello b)) = entries.map (fun b => [(28, b)]) ∧
      entries.all (fun b => noticeKinds (hello b) = [.outOfReach]) = true := by
  decide +kernel

/-- R33, R45: a hold expiry that has been told is taken before the hello of its serial; a hello that reports too long a delay while a search runs. -/
theorem witness_HellosThatAreNotUsed_told :
    let s := (hearing [(28, { serial := 7, body := .present 1 3 .opened false (some 120) })]).modSlot 1 3
      (fun _ => { home .lost with expiry := .told })
    let u := after (.hello 0 5000 (helloBytes 7 0 255)) s
    s.inReset = false ∧ storeWf s.directory = true ∧ (s.slot 1 3).state = .lost ∧ (s.slot 1 3).expiry = .told ∧
      dirLookup s.directory 7 = some (28, { serial := 7, body := .present 1 3 .opened false (some 120) }) ∧
      (u.slot 1 3).state = .free ∧ noticeKinds u = [.homeGone, .serialRefused] ∧ bodies u = [(28, .refused 0 0)] ∧
      heard (after (.hello 0 5000 (helloBytes 7 3001 255)) (s.modTree 0 (fun T => { T with search := { T.search with running := true } }))) = (0, 1, 0) := by
  decide +kernel

/-- A tree in OPEN mode. -/
def openMode (T : TreeState) : TreeState := { T with settings := { T.settings with mode := .opened } }

/-- The home table full. -/
def noSlots (T : TreeState) : TreeState := { T with slots := Vector.replicate 128 { Slot.free with state := .active } }

/-- R47, R49: an absent serial on a LISTED and on an OPEN tree, an EXPECTED one bound to no tree, this tree and another; no slot, no context. -/
theorem witness_HellosBeginEnrolments :
    let hello := fun (d : List (Nat × DirEntry)) (f : TreeState → TreeState) => after (.hello 0 5000 (helloBytes 7 0 127)) (hearing d f)
    let expected := fun (b : Option TreeId) => [(28, ({ serial := 7, body := .expected b true } : DirEntry))]
    let phase := fun (s : State) => (s.tree 0).engine.contexts[(0 : Fin 4)].map (fun c => [c.line.val, c.provisional, (c.prior.map (fun l => l.val)).getD 0])
    coarseRtt (window true) 5000 0 = 8000 ∧ (hearing [] (full 62)).inReset = false ∧ dirLookup [] (7 : Serial) = none ∧ dirWay [] (7 : Serial) = some 28 ∧
      ((hearing [] (full 62)).tree 0).available 0 = true ∧ ((hearing [] (full 62)).tree 0).framer.count = 62 ∧
      bodies (hello [] id) = [(28, .refused 0 0)] ∧ noticeKinds (hello (fullBucket.directory.map (fun p => (p.1, { p.2 with serial := 0x10000000003 }))) id) = [.serialRefused] ∧
      phase (hello [] (fun T => openMode (full 62 T))) = some [0, 800000, 127] ∧ bodies (hello [] openMode) = [(28, .present 0 0 .opened false none)] ∧
      noticeKinds (hello [] (fun T => openMode (noSlots T))) = [.treeFull] ∧
      heard (hello [] (fun T => openMode (allBusy (context .rangeWait) T))) = (1, 0, 1) ∧
      [none, some 0].all (fun b => decide (bodies (hello (expected b) id) = [(28, .present 0 0 (.listed b) true none)])) = true ∧
      noticeKinds (hello (expected (some 3)) id) = [.serialRefused] := by
  decide +kernel

/-- R49, R52: a full bucket on an OPEN tree, with a slot and a context and without; 63 and 64 messages held. -/
theorem witness_HellosBeginEnrolments_full :
    let hello := fun (f : TreeState → TreeState) => after (.hello 0 5000 (helloBytes 0x403 0 255)) (hearing fullBucket.directory (fun T => f (openMode T)))
    let waits := fun (n : Nat) =>
      let T := (after (.hello 0 5000 (helloBytes 7 0 255)) (hearing [] (fun T => openMode (full n T)))).tree 0
      (T.engine.contexts[(0 : Fin 4)].map (fun c => (c.phase, c.accepted)), T.framer.ordinary)
    dirLookup fullBucket.directory 0x403 = none ∧ dirWay fullBucket.directory 0x403 = none ∧
      [hello id, hello noSlots].map noticeKinds = [[.directoryFull], [.treeFull]] ∧ bodies (hello id) = bodies fullBucket ∧
      heard (hello (allBusy (context .rangeWait))) = (1, 0, 1) ∧
      [63, 64].map waits = [(some (.delayWait, false), [.assign 7 0]), (some (.assignWait, false), [])] := by
  decide +kernel

/-- R50, R51: a hello of a home that is present here in each state, and of a LOST home of tree 1 that may move. -/
theorem witness_HellosOfPresentSerials :
    let here : DirBody := .present 0 3 (.listed (some 0)) false (some 9)
    let hello := fun (b : DirBody) (f : State → State) (g : TreeState → TreeState) =>
      after (.hello 0 5000 (helloBytes 7 0 255)) (f (hearing [(28, { serial := 7, body := b })] g))
    let at_ := fun (t : TreeId) (x : Slot) (s : State) => s.modSlot t 3 (fun _ => x)
    let enrolling := fun (s : State) => (s.modTree 0 (fun T => withContext (context .rangeWait)
      { T with framer := { T.framer with ordinary := [.delay 3 1 .provisional, .delay 4 2 .final] } })).modSlot 0 3 (fun _ => home .ranging)
    let moves := hello (.present 1 3 (.listed none) false (some 9)) (fun s => queued 1023 (at_ 1 (home .lost) s)) (full 62)
    [HomeState.lost, .active, .cooldown].all (fun st =>
        let u := hello here (at_ 0 (home st)) (full 62)
        decide ((u.slot 0 3).state = .ranging) && decide (bodies u = [(28, .present 0 3 (.listed (some 0)) false none)]) &&
          decide (heard (hello here (at_ 0 (home st)) (allBusy { context .rangeWait with line := 9 })) = (1, 0, 1))) = true ∧
      ((hello here enrolling id).tree 0).framer.ordinary = [.delay 4 2 .final, .assign 7 3, .delay 3 800000 .provisional] ∧
      bodies moves = [(28, .present 0 0 (.listed none) false none)] ∧ moves.slot 1 3 = Slot.free ∧ (moves.slot 0 0).link = some 28 ∧
      moves.meter.queue.getLast?.map (fun r => (r.kind, r.moved)) = some (.final, true) ∧
      noticeKinds (hello (.present 1 3 (.listed (some 0)) false (some 9)) (at_ 1 (home .lost)) noSlots) = [.treeFull] ∧
      heard (hello (.present 1 3 (.listed none) false (some 9)) (at_ 1 (home .lost)) (allBusy (context .rangeWait))) = (1, 0, 1) := by
  decide +kernel

/-- R50, R52: 63 and 64 messages held, a restart that ends a drift wait, and a line that is not told of its expiry. -/
theorem witness_HellosOfPresentSerials_full :
    let hello := fun (x : Slot) (f : TreeState → TreeState) =>
      after (.hello 0 5000 (helloBytes 7 0 255)) ((hearing [(28, { serial := 7, body := .present 0 3 .opened false (some 9) })] f).modSlot 0 3 (fun _ => x))
    let see := fun (u : State) => ((u.tree 0).engine.contexts[(0 : Fin 4)].map (fun c => (c.kind, c.phase, c.accepted)), (u.tree 0).framer.ordinary)
    let again := fun (n : Nat) => hello { home .ranging with driftDelay := .unsent } (fun T => withContext (context .rangeWait)
      (full n { T with planner := { T.planner with rangingList := [3] } }))
    (home .lost).expiry = .quiet ∧
      [hello (home .lost) (full 63), hello (home .lost) (full 64), again 63, again 64].map see =
        [(some (.returning, .delayWait, false), [.assign 7 3]), (some (.returning, .assignWait, false), []), (some (.new, .delayWait, false), [.assign 7 3]),
          (some (.new, .assignWait, false), [])] ∧
      ((again 0).slot 0 3).driftDelay = .none ∧ ((again 0).tree 0).planner.rangingList = [3] := by
  decide +kernel

theorem witness_RefusedOffersAndRangingsAreTriedAgain :
    let enrol := fun (p : Phase) (accepted : Bool) (n : Nat) => lone { home .ranging with eqd := 621983 } (fun T => full n (withContext { context p with accepted := accepted } T))
    let sent := fun (s : State) => ((after (.enrolMessageRetry 0 3) s).tree 0).framer.ordinary
    let held := fun (n : Nat) => lone (home .active) (fun T => full n { T with
      engine := { T.engine with dismissHeld := [3], driftHeld := [(3, 99), (4, 1)] }, receiver := { T.receiver with muteWaits := [3] } })
    let muted := fun (n : Nat) => (held n).modSlot 0 3 (fun x => { x with state := .quarantined, cause := some .overrun })
    (enrol .assignWait false 62).inReset = false ∧ ((enrol .assignWait false 62).tree 0).engine.contexts[(0 : Fin 4)] = some { context .assignWait with accepted := false } ∧
      sent (enrol .assignWait false 62) = [.assign 7 3, .delay 3 622000 .provisional] ∧ sent (enrol .assignWait false 63) = [.assign 7 3] ∧
      sent (enrol .delayWait false 63) = [.delay 3 622000 .provisional] ∧ sent (enrol .finalWait false 63) = [.delay 3 621983 .final] ∧
      [enrol .assignWait false 64, enrol .rangeWait false 0, enrol .verifyWait false 0, enrol .delayWait true 0].map sent = [[], [], [], []] ∧
      ((held 63).slot 0 3).expiry = .quiet ∧ ((after (.dismissRetry 0 3) (held 63)).tree 0).engine.dismissHeld = [] ∧
      ((after (.dismissRetry 0 3) (held 64)).tree 0).engine.dismissHeld = [3] ∧ ((after (.driftDelayRetry 0 3) (held 63)).slot 0 3).eqd = 99 ∧
      ((after (.driftDelayRetry 0 3) (held 64)).tree 0).engine.driftHeld = [(4, 1), (3, 99)] ∧
      ((after (.overrunMuteRetry 0 3) (muted 63)).tree 0).receiver.muteWaits = [] ∧ ((after (.overrunMuteRetry 0 3) (muted 64)).tree 0).receiver.muteWaits = [3] := by
  decide +kernel

/-- The expected-arrival list of receive frame 5 with the grants given, with O = 16 and no ranging window but the first. -/
def frame5 (gs : List Grant) : ArrivalList :=
  ArrivalList.ofPlan { frame := 5, overhead := 16, ert := 28000, grants := gs, quiet := 0, windows := [0], search := false, probe := true }

/-- The receiver awaits those grants. -/
def expecting (gs : List Grant) (T : TreeState) : TreeState := { T with receiver := { T.receiver with lists := [frame5 gs] } }

/-- The 20 bytes of a ranging burst (R15). -/
def rangingBytes (l x : Nat) : List Byte :=
  let b := bytesOf 1 l ++ bytesOf 6 x ++ List.replicate 9 0
  b ++ bytesOf 4 (check32 b).toNat

/-- The ranging grant of a line at offset 128. -/
def rangingGrant (l : Line) : Grant := { line := l, kind := .ranging, start := 128, length := 128 }

/-- 3.4: e = +17 with the provisional delay 622,000 gives F = 621,983, the check of the burst by hand. -/
theorem test_ranging_worked :
    let c : Context := { context .rangeWait with serial := 0x001A2B3C4D5E, line := 9 }
    let s := (State.reset.modTree 0 (fun T => withContext c (expecting [rangingGrant 9] (T.modSlot 9 (fun _ => { Slot.free with state := .ranging, link := some 176 })))))
    let u := after (.rangingOutcome 0 9 (some { e := 17, bytes := [9, 0, 0x1A, 0x2B, 0x3C, 0x4D, 0x5E, 0, 0, 0, 0, 0, 0, 0, 0, 0, 0x4F, 0x39, 0xA3, 0x3B] })) s
    (u.slot 0 9).eqd = 621983 ∧ (u.tree 0).framer.ordinary = [.delay 9 621983 .final] ∧
      (u.tree 0).engine.contexts[(0 : Fin 4)].map (fun c => c.phase) = some .finalWait := by
  decide +kernel

/-- R53, R56: failures at attempts 1 and 2, a foreign serial, final delays -1, 0, 40 × ERT and above, of a NEW and a RETURN home. -/
theorem witness_RangingOutcomesGiveTheFinalDelay :
    let s := fun (kind : ContextKind) (attempts provisional : Nat) => lone (home .ranging) (fun T =>
      withContext { context .rangeWait with kind := kind, attempts := attempts, provisional := provisional } (expecting [rangingGrant 3] T))
    let burst := fun (e : Int) (x : Nat) => some ({ e := e, bytes := rangingBytes 3 x } : RangingBurst)
    let out := fun (s : State) (b : Option RangingBurst) => after (.rangingOutcome 0 3 b) s
    let see := fun (u : State) => ((u.slot 0 3).state, (u.tree 0).engine.contexts[(0 : Fin 4)].map (fun c => (c.phase, c.attempts)), noticeKinds u)
    (s .new 1 0).inReset = false ∧ goodBurstCheck (rangingBytes 3 7) = true ∧ natOf ((rangingBytes 3 7).take 1) = 3 ∧
      ((s .new 1 0).tree 0).receiver.lists = [frame5 [rangingGrant 3]] ∧ (frame5 [rangingGrant 3]).plan.frame = 5 ∧ (context .rangeWait).frame = some 5 ∧
      [out (s .new 1 0) none, out (s .new 1 0) (burst 0 8), out (s .new 2 0) none, out (s .returning 2 0) (burst 0 8), out (s .new 0 5119) (burst 5120 7),
        out (s .returning 0 1120000) (burst (-1) 7), out (s .new 0 5120) (burst 5120 7)].map see =
        [(.ranging, some (.rangeWait, 2), []), (.ranging, some (.rangeWait, 2), []), (.free, none, [.enrolFailed]), (.lost, none, [.enrolFailed, .homeLost]),
          (.free, none, [.outOfReach]), (.lost, none, [.outOfReach, .homeLost]), (.ranging, some (.finalWait, 0), [])] ∧
      ((out (s .new 0 1119999) (burst (-1) 7)).slot 0 3).eqd = 1120000 := by
  decide +kernel

/-- R56, R123: an attempt of a muted RETURN home is not counted; a muted NEW home's is. -/
theorem witness_RangingOutcomesGiveTheFinalDelay_muted :
    let out := fun (kind : ContextKind) => after (.rangingOutcome 0 3 none) (lone { home .ranging with muted := true } (fun T =>
      withContext { context .rangeWait with kind := kind, attempts := 2 } (expecting [rangingGrant 3] T)))
    let see := fun (u : State) => ((u.slot 0 3).state, (u.tree 0).engine.contexts[(0 : Fin 4)].map (fun c => c.attempts), (u.tree 0).planner.rangingList)
    see (out .returning) = (.ranging, some 2, [3]) ∧ see (out .new) = (.free, none, []) := by
  decide +kernel

/-- A burst of `space` bytes from line `l` with a backlog and packets (R13, Table 1-6). -/
def burstBytes (l backlog space : Nat) (ps : List Packet) : List Byte :=
  let b := bytesOf 1 l ++ bytesOf 3 backlog ++ ps.flatMap (fun p => bytesOf 2 p.length ++ p) ++ [0, 0]
  b ++ List.replicate (space - 4 - b.length) 0 ++ bytesOf 4 (check32 b).toNat

/-- A STATUS grant of a line at an offset, of 18 SU. -/
def statusGrant (l : Line) (start : Nat) : Grant := { line := l, kind := .status, start := start, length := 18 }

/-- R55, R57: a verify burst within and beyond 80 bit times, none, and one whose check fails; a NEW and a RETURN home. -/
theorem witness_AVerifyBringsTheHomeIntoService :
    let s := fun (kind : ContextKind) => lone { home .ranging with account := .empty, eqd := 621983 } (fun T =>
      withContext { context .verifyWait with kind := kind } (expecting [statusGrant 3 1000] T))
    let out := fun (s : State) (b : Option Burst) => after (.grantOutcome 0 3 b) s
    let burst := fun (e : Int) (bytes : List Byte) => some ({ e := e, guard := darkGuard, bytes := bytes } : Burst)
    let good := burstBytes 3 40 10 []
    let see := fun (u : State) => ((u.slot 0 3).state, (u.tree 0).engine.contexts[(0 : Fin 4)].map (fun c => (c.phase, c.attempts, c.provisional)), noticeKinds u)
    (s .new).inReset = false ∧ (frame5 [statusGrant 3 1000]).grants.find? (ListedGrant.awaits 3) = some { grant := statusGrant 3 1000, mark := .pending, charged := false } ∧
      unpackBurst 3 10 good = { good := true, backlog := 40, packets := [] } ∧ (unpackBurst 3 10 (burstBytes 4 40 10 [])).good = false ∧
      [out (s .new) none, out (s .new) (burst 321 good), out (s .new) (burst 0 (burstBytes 4 40 10 [])), out (s .new) (burst 80 good),
        out (s .returning) (burst (-80) good)].map see = [(.ranging, some (.rangeWait, 1, 621983), []), (.ranging, some (.rangeWait, 1, 621983), []),
          (.ranging, some (.rangeWait, 1, 621983), []), (.active, none, [.homeActive]), (.active, none, [.homeActive])] ∧
      ((out (s .new) (burst 80 good)).slot 0 3).account = .opened { account with clockUnset := true } ∧
      ((out (s .returning) (burst 80 good)).slot 0 3).account = .empty ∧ ((out (s .new) (burst 80 good)).slot 0 3).service.map (fun r => r.b) = some 40 := by
  decide +kernel

/-- A home of line 3 whose verify grant is awaited, in a context of a kind with the attempts given. -/
def verifying (kind : ContextKind) (attempts : Nat) (muted : Bool) : State :=
  lone { home .ranging with eqd := 621983, muted := muted } (fun T =>
    withContext { context .verifyWait with kind := kind, attempts := attempts } (expecting [statusGrant 3 1000] T))

/-- What an outcome leaves of that home: its state, its context and the notices. -/
def verified (s : State) (b : Option Burst) : HomeState × Option (Phase × Nat) × List NoticeKind :=
  let u := after (.grantOutcome 0 3 b) s
  ((u.slot 0 3).state, (u.tree 0).engine.contexts[(0 : Fin 4)].map (fun c => (c.phase, c.attempts)), noticeKinds u)

/-- A good verify burst with a lit onset at an offset error. -/
def verifyBurst (e : Int) : Option Burst := some { e := e, guard := litGuard, bytes := burstBytes 3 40 10 [] }

/-- R57: verify bursts at 81 and 320 bit times, which fail but hand over their backlog, and at 321, which counts as missed. -/
theorem witness_AVerifyBringsTheHomeIntoService_fails :
    [81, -320, 321].map (fun e => (verified (verifying .new 0 false) (verifyBurst e)).2.1) =
        [some (.rangeWait, 1), some (.rangeWait, 1), some (.rangeWait, 1)] ∧
      [81, -320, 321].map (fun e => ((after (.grantOutcome 0 3 (verifyBurst e)) (verifying .new 0 false)).slot 0 3).service.map (fun r => r.b)) =
        [some 40, some 40, some 0] := by
  decide +kernel

/-- R57, R123: the third failure of a NEW and of a RETURN home, and an attempt of a muted home of each kind. -/
theorem witness_AVerifyBringsTheHomeIntoService_ends :
    [verified (verifying .new 1 false) none, verified (verifying .new 2 false) none, verified (verifying .returning 2 false) (verifyBurst 81),
        verified (verifying .returning 2 true) none, verified (verifying .new 2 true) none] =
      [(.ranging, some (.rangeWait, 2), []), (.free, none, [.enrolFailed]), (.lost, none, [.enrolFailed, .homeLost]),
        (.ranging, some (.rangeWait, 2), []), (.free, none, [.enrolFailed])] := by
  decide +kernel

theorem witness_RefusedOffersAndRangingsAreTriedAgain_return :
    let s := fun (x : Slot) (f : TreeState → TreeState) => lone x (fun T => f { T with lastTry := some 2, search := { T.search with pending := [3, 9] } })
    let wants := { home .cooldown with misplaced := 4, eqd := 5 }
    let held := { home .quarantined with muted := true, eqd := 5 }
    let see := fun (u : State) => ((u.slot 0 3).state, (u.slot 0 3).muted, (u.tree 0).lastTry, (u.tree 0).search.pending, (u.tree 0).engine.contexts[(0 : Fin 4)].map (fun c => c.line))
    (s wants id).inReset = false ∧ ((s wants id).tree 0).mayTry 3 = true ∧ ((s wants id).slot 0 3).misplaced = 4 ∧
      [after (.returnRangingRetry 0 3) (s wants id), after (.returnRangingRetry 0 3) (s wants (allBusy { context .rangeWait with line := 8 })),
        after (.releaseTry 0 3) (s held (full 63)), after (.releaseTry 0 3) (s held (full 64)),
        after (.releaseTry 0 3) (s held (allBusy { context .rangeWait with line := 8 }))].map see =
        [(.ranging, false, some 3, [3, 9], some 3), (.cooldown, false, some 3, [3, 9], some 8), (.ranging, false, some 3, [9], some 3),
          (.quarantined, true, some 3, [3, 9], none), (.quarantined, true, some 3, [3, 9], some 8)] := by
  decide +kernel

/-! ## The upstream planner and the frame start -/

/-- A home of a worked plan: its state, CR, PR, BA, w, K before, B and frames since grant. -/
def planned (st : HomeState) (cr pr ba w k b since : Nat) : Slot :=
  { Slot.free with state := st, sinceGrant := since
                   service := some { record with live := { cr := cr, pr := pr, ba := ba, tr := 312, w := w, dw := 1 }, k := k, b := b } }

/-- The tree of the worked plans with its rotation pointer (4.6). -/
def planTree (rotation : Line) (since : Nat) : TreeState :=
  let T := { TreeState.reset with planner := { Planner.reset with rotation := rotation } }
  ((T.modSlot 5 (fun _ => planned .active 1000 20000 4000 2 2500 50000 1)).modSlot 9 (fun _ => planned .active 500 5000 2000 1 1800 1200 since)).modSlot
    17 (fun _ => planned .active 0 30000 0 1 0 80000 1)

/-- What a plan leaves in a slot: K and frames since grant. -/
def creditOf (T : TreeState) (l : Line) : Option Nat × Nat := ((T.slot l).service.map (fun r => r.k), (T.slot l).sinceGrant)

/-- 4.6: the full frame. -/
theorem test_plan_full_frame :
    let r := (planTree 5 1).buildPlan 7
    r.2.grants = [{ line := 5, kind := .data, start := 0, length := 4016 }, { line := 9, kind := .data, start := 4016, length := 256 },
        { line := 17, kind := .data, start := 4272, length := 4873 }] ∧
      [5, 9, 17].map (creditOf r.1) = [(some 0, 0), (some 800, 0), (some 0, 0)] ∧ r.1.planner.rotation = 6 ∧ r.1.planner.summary.dark = 6416 ∧
      r.1.planner.summary.span = 15561 := by
  decide +kernel

/-- 4.7: the frame cut by a quiet window. -/
theorem test_plan_quiet_window :
    let T := ((planTree 9 8).modSlot 30 (fun _ => planned .cooldown 0 3125 0 1 0 0 1)).modSlot 40 (fun _ => planned .active 12000 20000 20000 4 10000 30000 1)
    let r := ({ T with planner := { T.planner with remainder := some (8, 12503) } }).buildPlan 8
    r.2.grants = [{ line := 30, kind := .status, start := 12503, length := 18 }, { line := 9, kind := .data, start := 12521, length := 256 },
        { line := 40, kind := .data, start := 12777, length := 2784 }] ∧
      [5, 9, 17, 40].map (creditOf r.1) = [(some 3500, 2), (some 800, 0), (some 0, 2), (some 6160, 0)] ∧ r.1.planner.rotation = 10 ∧
      r.1.planner.summary.dark = 0 ∧ r.1.planner.summary.dropped = 2 ∧ r.1.planner.remainder = none := by
  decide +kernel

/-- A home of the passes: line, whether in the status set, K, B and PR. -/
def planned1 (l : Line) (inSet : Bool) (k b pr : Nat) : PlanHome :=
  { line := l, active := true, inSet := inSet, k := k, b := b, pr := pr, w := 1, g1 := 0, share := 0 }

/-- R85: 100 bytes cost 36 SU with O = 16: 36, 35, 17 and 16 SU are left, and 18 given back from a reservation. -/
theorem witness_PlansFollowThePasses_committed :
    let pass := fun (inSet : Bool) (r : Nat) => ((committedPass 16 r [planned1 5 inSet 100 200 300]).1.map (fun h => h.g1), (committedPass 16 r [planned1 5 inSet 100 200 300]).2)
    [pass false 36, pass false 35, pass false 17, pass false 16, pass true 18, pass true 17] =
      [([100], 0), ([95], 0), ([5], 0), ([0], 16), ([100], 0), ([95], 0)] := by
  decide +kernel

/-- R85, R87: a reserved home after a cut grant has none and nothing is given back; a cut grant's home is in the excess set and has no share (log
entries 64 and 65). -/
theorem witness_PlansFollowThePasses_cut :
    let homes := [planned1 5 false 100 200 300, planned1 6 true 100 200 300]
    let granted := fun (r : Nat) => ((committedPass 16 r homes).1.map (fun h => h.g1), (committedPass 16 r homes).2)
    let excess := fun (g1 : Nat) =>
      let out := excessPass 16 100 12 [{ planned1 5 false 100 200 300 with g1 := g1 }, { planned1 6 false 10 200 300 with g1 := 10 }]
      (out.1.map (fun h => h.share), out.2)
    homes.all (fun h => decide (h.g1 = 0)) = true ∧ [36, 35, 17, 16].map granted = [([100, 10], 0), ([95, 0], 0), ([5, 0], 0), ([0, 90], 0)] ∧
      [100, 95].map excess = [([25, 25], 0), ([0, 25], 0)] := by
  decide +kernel

/-- R86: a member in need of 17 SU stays with 17 SU left and is dropped with 16; a share that rounds to 0 in the status set costs its grant, and the
pool is lowered (log entry 37). -/
theorem witness_PlansFollowThePasses_excess :
    let out := fun (room r : Nat) (homes : List PlanHome) => ((excessPass 16 room r homes).1.map (fun h => h.share), (excessPass 16 room r homes).2)
    let rounds := [{ planned1 5 true 0 1000 1000 with w := 255 }, planned1 6 true 0 9 9, planned1 7 true 0 9 9]
    [planned1 5 false 0 7 9, planned1 6 false 0 9 9].Pairwise (fun g h => g.line ≠ h.line) ∧
      [out 100 17 [planned1 5 false 0 7 9], out 100 16 [planned1 5 false 0 7 9], out 100 38 [planned1 5 false 0 9 9, planned1 6 false 0 9 8]] =
        [([0], 0), ([0], 1), ([9, 8], 0)] ∧
      homesSU 16 (excessPass 16 54 0 rounds).1 ≤ 54 := by
  decide +kernel

/-- The tree of a worked plan with a home that ranges and is on both lists, and a quiet window pending. -/
def ranging (quiet : Nat × Nat) : TreeState :=
  withContext (context .verifyWait) { (planTree 9 8).modSlot 3 (fun _ => home .ranging) with
    planner := { Planner.reset with quiet := some quiet, rotation := 9, rangingList := [3], verifyList := [3] } }

/-- R77, R78, R84, R89: no line stands twice in a list and no two contexts have one line; a quiet portion that leaves 21 SU, none, and passes the
end of the frame; the window of another frame; and a line of both lists, which gets its ranging grant alone. -/
theorem witness_PlansFollowThePasses :
    let plan := fun (q : Nat × Nat) => (ranging q).buildPlan 7
    (ranging (7, 0)).planner.rangingList.Nodup ∧ (ranging (7, 0)).planner.verifyList.Nodup ∧ (ranging (7, 0)).engine.contexts[(1 : Fin 4)] = none ∧
      [(7, 15540), (7, 15561), (7, 15626), (8, 15626)].map (fun q => (plan q).2.grants.length) = [1, 0, 0, 4] ∧
      (plan (8, 15626)).2.grants.head? = some { line := 3, kind := .ranging, start := 128, length := 128 } := by
  decide +kernel

/-- The books of those plans: the remainder, the lists, the homes that waited and the frame the context is told. -/
theorem witness_PlansFollowThePasses_books :
    let plan := fun (q : Nat × Nat) => ((ranging q).buildPlan 7).1
    [plan (7, 15626), plan (8, 15626)].map (fun T => (T.planner.remainder, T.planner.rangingList, T.planner.verifyList)) =
        [(some (8, 1), [3], [3]), (none, [], [3])] ∧
      [plan (7, 15626), plan (8, 15626)].map (fun T => T.planner.summary.waited) = [1, 0] ∧
      [plan (7, 15626), plan (8, 15626)].map (fun T => T.engine.contexts[(0 : Fin 4)].map (fun c => c.frame)) = [some (some 5), some (some 5)] := by
  decide +kernel

/-- 1.3: the queue of the worked selection on tree 2 at frame 7, the CALL for frame 9. -/
def selecting : State :=
  ({ State.reset with time := { Timebase.reset with frame := 7 } }).modTree 2 (fun T =>
    { T with framer := { T.framer with urgent := [.mute 3 none, .unmute 7 none], ordinary := [.delay 12 1 .final, .call 25000 28128 9, .assign 99 13] } })

/-- 1.3: frame 7 carries b, e, a, d; the CALL stays; in frame 9 it goes out. And the frame starts that are not due. -/
theorem witness_FrameStartSendsTheFrame :
    let u := after (.frameStart 2) selecting
    let listsFull := selecting.modTree 2 (fun T => { T with receiver := { T.receiver with lists := [frame5 [], frame5 [], frame5 []] } })
    let begun := selecting.modTree 2 (fun T => { T with started := true })
    selecting.inReset = false ∧ (selecting.tree 2).receiver.lists.length = 0 ∧ (selecting.tree 2).started = false ∧
      (u.tree 2).framer.sent.map (fun f => (f.frame, f.messages)) = some (7, [.mute 3 none, .unmute 7 none, .delay 12 1 .final, .assign 99 13]) ∧
      (u.tree 2).framer.ordinary = [.call 25000 28128 9] ∧ (u.tree 2).started = true ∧ (u.tree 2).receiver.lists.length = 1 ∧
      (Framer.selection { Framer.reset with urgent := [], ordinary := [.call 25000 28128 9] } 9) = [.call 25000 28128 9] ∧
      ((after (.frameStart 2) listsFull).tree 2).started = false ∧ (begun.tree 1).started = false ∧
      ((after (.frameStart 2) begun).tree 2).framer.sent = none := by
  decide +kernel

/-- R52, R54: a provisional DELAY of a slot in ASSIGNED and in RANGING, a final DELAY, and one that finds the context in another phase. -/
theorem witness_SentMessagesActOnTheirBlocks :
    let s := fun (st : HomeState) (phase : Phase) => lone { home st with queue := [packet 64], deficit := 9, miss := 2 } (fun T => withContext (context phase) T)
    let told := fun (m : LineMsg) (s : State) => s.tellSent 0 9 m
    let sent := [told (.delay 3 622000 .provisional) (s .assigned .delayWait), told (.delay 3 622000 .provisional) (s .ranging .delayWait),
      told (.delay 3 5 .final) (s .ranging .finalWait), told (.delay 3 5 .final) (s .ranging .rangeWait)]
    sent.map (fun u => ((u.slot 0 3).state, [(u.slot 0 3).eqd, (u.slot 0 3).miss, (u.slot 0 3).deficit])) =
        [(.ranging, [622000, 0, 0]), (.ranging, [622000, 2, 9]), (.ranging, [0, 2, 9]), (.ranging, [0, 2, 9])] ∧
      sent.map (fun u => (u.tree 0).engine.contexts[(0 : Fin 4)].map (fun c => (c.phase, c.frame))) =
        [some (.rangeWait, none), some (.rangeWait, none), some (.verifyWait, none), some (.rangeWait, some 5)] ∧
      sent.map (fun u => [(u.tree 0).planner.rangingList, (u.tree 0).planner.verifyList]) = [[[3], []], [[3], []], [[], [3]], [[], []]] := by
  decide +kernel

/-- R42, R58, R61: drift DELAYs that were unsent, sent and not wanted, and a CALL. -/
theorem witness_SentMessagesActOnTheirBlocks_drift :
    let drift := fun (d : DriftDelay) => (((lone { home .active with driftDelay := d }).tellSent 0 9 (.delay 3 5 .drift)).slot 0 3).driftDelay
    let scheduled := opening 0 (fun T => { T with engine := { T.engine with window := some (window false) } })
    (context .delayWait).line = 3 ∧ (context .delayWait).frame = some 5 ∧ [DriftDelay.unsent, .sent 4, .none].map drift = [.sent 9, .sent 4, .none] ∧
      ((scheduled.tellSent 0 9 (.call 0 0 9)).tree 0).engine.window = some (window true) := by
  decide +kernel

/-- R52, R64: a RETURN context in DELAY_WAIT is abandoned at a search start with its DELAY in the queue; that DELAY carries out no step of a later
context of the line. -/
theorem witness_SentMessagesActOnTheirBlocks_abandoned :
    let s := lone (home .ranging) (fun T => withContext { context .delayWait with kind := .returning }
      { T with framer := { T.framer with ordinary := [.assign 7 3, .delay 3 5 .provisional, .delay 4 1 .final, .delay 3 2 .drift] } })
    let u := after (.startSearch (ctl 0)) s
    let later := lone (home .assigned) (withContext (context .delayWait))
    s.ready (ctl 0) .startSearch = true ∧ (s.tree 0).engine.contexts[(0 : Fin 4)].map (fun c => c.line) = some 3 ∧
      (u.slot 0 3).state = .lost ∧ (u.tree 0).framer.ordinary = [.assign 7 3, .delay 3 5 .abandoned, .delay 4 1 .final, .delay 3 2 .drift] ∧
      later.tellSent 0 9 (.delay 3 5 .abandoned) = later := by
  decide +kernel

/-- R115, R116: two lines awaited and one; a message of the step in hand and one of another step. -/
theorem witness_SentMessagesActOnTheirBlocks_search :
    let s := fun (awaited : List Line) => State.reset.modTree 2 (fun T => { T with
      settings := { T.settings with span := 4 }
      search := { T.search with running := true, test := some { kind := .verify, group := { lo := 0, hi := 2 }, step := 5, observing := false, retry := [], awaited := awaited, m := none, span := 16, counted := 3, lit := 3 } } })
    let see := fun (m : LineMsg) (s : State) => ((s.tellSent 2 9 m).tree 2).search.test.map (fun x => (x.awaited, x.m, x.observing, x.span, x.counted))
    [see (.mute 3 (some 5)) (s [3, 8]), see (.unmute 3 (some 5)) (s [3]), see (.mute 3 (some 4)) (s [3]), see (.mute 3 none) (s [3])] =
      [some ([8], some 9, false, 16, 3), some ([], some 9, true, 4, 0), some ([3], none, false, 16, 3), some ([3], none, false, 16, 3)] := by
  decide +kernel

/-- R8, R42, R43: frame 9 with a CALL for it, behind 15 and behind 16 urgent messages; and a DELAY of each use. -/
theorem witness_SentMessagesActOnTheirBlocks_frame :
    let s := fun (n : Nat) (ms : List LineMsg) => ({ lone { home .assigned with driftDelay := .unsent } with time := { Timebase.reset with frame := 9 } }).modTree 0 (fun T =>
      withContext (context .delayWait) { T with
        engine := { T.engine with window := some { window false with target := 9 } }, planner := { T.planner with quiet := some (9, 128) }
        framer := { T.framer with urgent := List.replicate n (.dismiss 127), ordinary := LineMsg.call 25000 28128 9 :: ms } })
    let u := fun (n : Nat) => (after (.frameStart 0) (s n [])).tree 0
    let v := after (.frameStart 0) (s 0 [.delay 3 5 .drift, .delay 3 622000 .provisional])
    (s 15 []).inReset = false ∧ ((s 15 []).tree 0).receiver.lists.length < 3 ∧ ((s 15 []).tree 0).started = false ∧
      [15, 16].map (fun n => ((u n).engine.window.map (fun w => w.opened), (u n).engine.skipped, (u n).engine.counter, (u n).framer.ordinary)) =
        [(some true, 0, 1, []), (none, 1, 0, [])] ∧
      ((v.slot 0 3).state, (v.slot 0 3).eqd, (v.slot 0 3).driftDelay, (v.tree 0).planner.rangingList) = (.ranging, 622000, .sent 9, [3]) := by
  decide +kernel

/-- R192: the seconds counted rise to 4,294,967,295 and stay there; R105: the first frame of the last period is 0 before a period has ended. -/
theorem test_seconds_top_and_last_period :
    let s := fun (n : Nat) => { State.reset with time := { Timebase.reset with seconds := n, secondsDue := [4000] } }
    [4294967294, 4294967295].map (fun n => (after .secondEvent (s n)).time.seconds) = [4294967295, 4294967295] ∧
      (State.reset.tree 0).watch.lastFirst = 0 := by
  decide +kernel

/-- R1, R32: once all trees have started, the boundary comes; the 4,000th brings a second event. -/
theorem witness_FrameStartSendsTheFrame_boundary :
    let s := fun (b : Nat) => ({ State.reset with time := { Timebase.reset with frame := 3999, boundaries := b }
                                                  trees := Vector.replicate 4 { TreeState.reset with started := true } })
    (s 3999).allStarted = true ∧ (s 3999).frameBoundary.time = { Timebase.reset with frame := 4000, boundaries := 0, secondsDue := [4000] } ∧
      (s 3998).frameBoundary.time = { Timebase.reset with frame := 4000, boundaries := 3999 } ∧ ((s 3998).frameBoundary.tree 3).started = false := by
  decide +kernel

/-- R1: the frame number wraps to 0 after 4,294,967,295, and a stored count goes on. -/
theorem test_frame_number_wraps :
    let s : State := { State.reset with time := { Timebase.reset with frame := 4294967295 }
                                        trees := Vector.replicate 4 { TreeState.reset with started := true } }
    let u := after (.frameStart 1) s
    (u.time.frame, u.time.wraps, u.time.count) = (0, 1, 4294967296) ∧ (u.tree 1).framer.sent.map (fun f => f.frame) = some 0 ∧
      ((after (.identify (ctl 15)) u).time.frame, (u.tree 1).receiver.lists.map (fun a => a.plan.frame)) = (0, [4294967296]) := by
  decide +kernel

/-- R63, R74, R101, R158: a hold with one frame and two frames left, a cooldown with one and two, the schedule counter below and at DI, a muted
home. -/
theorem witness_FrameStartSendsTheFrame_counts :
    let s := fun (hold cooldown counter : Nat) => lone
      { home .cooldown with cooldown := cooldown, muted := true, service := some { record with k := 9, live := { record.live with ba := 9 }, staged := { ba := some 4 } } }
      (fun T => { T with planner := { T.planner with hold := some hold }, engine := { T.engine with counter := counter } })
    let u := fun (hold cooldown counter : Nat) => after (.frameStart 0) (s hold cooldown counter)
    let see := fun (u : State) => ((u.tree 0).planner.hold, ((u.slot 0 3).state, (u.slot 0 3).cooldown), (u.tree 0).engine.counter, noticeKinds u)
    account.quota = 0 ∧ account.carries = {} ∧ (s 1 1 63).inReset = false ∧ ((s 1 1 63).tree 0).started = false ∧
      [u 1 1 63, u 2 2 64].map see = [(none, (.active, 0), 64, [.holdLapsed]), (some 1, (.cooldown, 1), 64, [])] ∧
      [u 1 1 63, u 2 2 64].map (fun u => (u.slot 0 3).service.map (fun r => (r.k, r.live.ba))) = [some (4, 4), some (9, 9)] ∧
      ((u 1 1 63).slot 0 3).account = .opened { account with counts := { outage := 1 } } := by
  decide +kernel

/-- R140, R147: the packets of the data area are billed to their homes, to the last byte of a count. -/
theorem witness_FrameStartSendsTheFrame_bills :
    let top := 281474976710655
    let u := fun (down : Nat) => after (.frameStart 0) (lone { home .active with
      account := .opened { account with counts := { down := down } }, queue := [packet 100, packet 200] })
    let see := fun (u : State) => match (u.slot 0 3).account with
      | .opened a => ((u.tree 0).framer.sent.map (fun f => f.packets.map (fun p => (p.1, p.2.length))), a.counts.down, a.period)
      | _ => (none, 0, 0)
    [0, top - 300].map (fun n => see (u n)) = [(some [(some 3, 100), (some 3, 200)], 300, 300), (some [(some 3, 100), (some 3, 200)], top, 300)] := by
  decide +kernel

/-- Every service record of a state is within its allowance. -/
theorem bounded_of_all {s : State} (h : ∀ t l, (s.slot t l).service.all (fun r => decide (r.k ≤ r.live.ba)) = true) : s.creditBounded := by
  intro t l r hr
  have := h t l
  rw [hr] at this
  simpa using this

theorem witness_EveryStepKeepsQueuesListsAndCreditBounded_credit :
    let s := (lone (planned .active 1000 20000 4000 2 4000 50000 1)).withPending [.holdLapsed 0]
    s.creditBounded ∧ step s = .next (after (.holdLapsed 0) (s.withPending [])) :=
  ⟨bounded_of_all (by decide +kernel), rfl⟩

/-- R67 to R70: fields at and beyond their ranges, PR and BA below CR, a request with no field the craft link may write, and the identifiers. -/
theorem witness_ServiceRequestsClampAndStage :
    let s := lone (home .active)
    let set := fun (h : Head) (line : Nat) (f : ServiceChange) => after (.setService h line f) s
    let staged := fun (u : State) => (u.slot 0 3).service.map (fun r => r.staged)
    s.ready (ctl 0) .setService = true ∧ s.ready (craft 0) .setService = true ∧ s.ready (ctl 0) .setDefaultService = true ∧
      [set (ctl 4) 3 {}, set (ctl 15) 3 {}, set (ctl 0) 128 {}, after (.readService (ctl 0) 128) s, after (.setDefaultService (ctl 4) {}) s,
        set (ctl 0) 127 {}, after (.readService (ctl 3) 3) s, set (ctl 0) 3 {}, after (.setDefaultService (ctl 15) {}) s, after (.readService (ctl 0) 3) s,
        set (ctl 0) 3 { cr := some 62500, ba := some 250000, tr := some 62500, pr := some 62500, w := some 255, dw := some 1 }].map code =
        [some .badValue, some .badValue, some .badValue, some .badValue, some .badValue, some .conflict, some .conflict, some .done, some .done, some .done,
          some .done] ∧
      [set (ctl 0) 3 { cr := some 62501 }, set (ctl 0) 3 { pr := some 62501 }, set (ctl 0) 3 { cr := some 4000 }, set (ctl 0) 3 { ba := some 250001 },
        set (ctl 0) 3 { tr := some 62501 }, set (ctl 0) 3 { w := some 0 }, set (ctl 0) 3 { dw := some 256 }].map field =
        [some 2, some 3, some 3, some 4, some 5, some 6, some 7] ∧
      staged (set (ctl 0) 3 { cr := some 4000 }) = some { cr := some 4000, pr := some 4000, ba := some 4000 } ∧
      staged (set (craft 0) 3 { cr := some 9, w := some 0 }) = some {} ∧ staged (set (ctl 0) 3 { w := some 1, dw := some 9 }) = some { dw := some 9 } := by
  decide +kernel

/-- R70: the default record of one tree and of all four. -/
theorem test_default_service :
    let set := fun (tree : Nat) => after (.setDefaultService (ctl tree) { w := some 300, cr := some 5 }) State.reset
    field (set 15) = some 3 ∧ [0, 3].map (fun t => ((set 15).tree t).settings.service.w) = [255, 255] ∧
      [0, 3].map (fun t => ((set 3).tree t).settings.service) =
        [{ cr := 0, pr := 3125, ba := 0, tr := 312, w := 1, dw := 1 }, { cr := 5, pr := 3125, ba := 5, tr := 312, w := 255, dw := 1 }] := by
  decide +kernel

theorem witness_HoldsAreSetReleasedAndLapse :
    let holding := fun (n : Nat) => lone { home .active with service := some { record with k := 9, live := { record.live with ba := 9 }, staged := { ba := some 4 } } }
      (fun T => { T with planner := { T.planner with hold := some n } })
    let lapsed := after (.holdLapsed 0) (holding 1)
    State.reset.ready (ctl 0) .holdTree = true ∧ (holding 2).ready (ctl 0) .releaseHold = true ∧
      [after (.holdTree (ctl 4)) State.reset, after (.holdTree (ctl 14)) State.reset, after (.releaseHold (ctl 16)) State.reset,
        after (.releaseHold (ctl 15)) State.reset, after (.releaseHold (ctl 1)) (holding 2)].map code =
        [some .badValue, some .badValue, some .badValue, some .conflict, some .conflict] ∧
      [0, 3].map (fun t => ((after (.holdTree (ctl 3)) State.reset).tree t).planner.hold) = [none, some 4000] ∧
      ((after (.holdTree (ctl 15)) State.reset).tree 0).planner.hold = some 4000 ∧ ((after (.releaseHold (ctl 15)) (holding 2)).tree 0).planner.hold = none ∧
      ((after (.holdLapsed 0) (holding 2)).tree 0).planner.hold = some 2 ∧ (lapsed.tree 0).planner.hold = none ∧ noticeKinds lapsed = [.holdLapsed] ∧
      (lapsed.slot 0 3).service.map (fun r => (r.k, r.live.ba)) = some (4, 4) := by
  decide +kernel

/-! ## The burst receiver and the light watch -/

/-- The home of line 3 awaits a STATUS grant at offset 1,000 of receive frame 5. -/
def awaiting (x : Slot) (f : TreeState → TreeState := id) : State := lone x (fun T => f (expecting [statusGrant 3 1000] T))

/-- A status burst at line 3 with backlog 40 and a good check. -/
def statusBurst (e : Int) : Option Burst := some { e := e, guard := darkGuard, bytes := burstBytes 3 40 10 [] }

/-- R58, R59: the classes at their edges (8, 9, 80, 81 and 320 bit times), the misses, a muted home, and a drift DELAY unsent, sent in the frame
before and in this one. -/
theorem witness_GrantOutcomesWriteTheCounters :
    let out := fun (x : Slot) (b : Option Burst) => (after (.grantOutcome 0 3 b) (awaiting x)).slot 0 3
    let x := { home .active with miss := 2, drift := { length := 6, sign := some .late }, misplaced := 1 }
    let see := fun (y : Slot) => (y.miss, y.drift.length, y.misplaced)
    (awaiting x).inReset = false ∧ (awaiting x).serialOf 0 3 = some 7 ∧ (frame5 [statusGrant 3 1000]).grants.length = 1 ∧
      [out x none, out { x with muted := true } none, out x (statusBurst 8), out x (statusBurst (-8)), out x (statusBurst 9), out x (statusBurst (-9)),
        out x (statusBurst 80), out x (statusBurst 81), out { x with misplaced := 2 } (statusBurst (-320)), out { x with driftDelay := .unsent } (statusBurst 9),
        out { x with driftDelay := .sent 5 } (statusBurst 9), out { x with driftDelay := .sent 4 } (statusBurst 9)].map see =
        [(3, 6, 1), (2, 6, 1), (0, 0, 0), (0, 0, 0), (0, 7, 0), (0, 1, 0), (0, 7, 0), (0, 0, 2), (0, 0, 3), (0, 6, 1), (0, 6, 1), (0, 7, 0)] ∧
      (out x (statusBurst 0)).service.map (fun r => r.b) = some 40 ∧ (out { x with miss := 3 } none).state = .lost ∧
      ((after (.grantOutcome 0 3 none) (awaiting { x with miss := 3 } (full 64))).tree 0).engine.dismissHeld = [3] ∧
      bodies (after (.grantOutcome 0 3 none) (awaiting { x with miss := 3 } (full 63))) = [(28, .present 0 3 .opened false (some 0))] := by
  decide +kernel

/-- 5.4, second row: a burst 40 bit times early whose check fails. -/
theorem test_bad_burst :
    let u := after (.grantOutcome 0 3 (some { e := -40, guard := darkGuard, bytes := burstBytes 9 40 10 [] })) (awaiting (home .active))
    (u.slot 0 3).drift = { length := 1, sign := some .early } ∧ (u.slot 0 3).service.map (fun r => r.b) = some 0 ∧ (u.tree 0).receiver.bad = 1 ∧
      (u.tree 0).receiver.lists.map (fun a => (a.expected, a.bad)) = [(1, 1)] := by
  decide +kernel

/-- What an outcome leaves in the report of the frame: the mark, the expected and the bad counts. -/
def report (x : Slot) (b : Option Burst) : List (List GrantMark × Nat × Nat) :=
  ((after (.grantOutcome 0 3 b) (awaiting x)).tree 0).receiver.lists.map (fun a => (a.grants.map (fun g => g.mark), a.expected, a.bad))

/-- R97, R104: misses of a home in service, muted and LOST; bursts of a QUARANTINED and a LOST home, good and bad, and one at 321 bit times. -/
theorem witness_ArrivalsAreReportedCorrectedAndReRanged :
    let bad : Option Burst := some { e := -40, guard := litGuard, bytes := burstBytes 9 40 10 [] }
    let quarantined := { home .quarantined with muted := true }
    (awaiting quarantined).inReset = false ∧ ((awaiting quarantined).tree 0).engine.contexts[(0 : Fin 4)] = none ∧
      [report (home .active) none, report { home .active with muted := true } none, report (home .lost) none, report (home .active) (statusBurst 321),
        report quarantined (statusBurst 320), report (home .lost) bad] =
      [[([.missed], 1, 0)], [([.missed], 0, 0)], [([.missed], 0, 0)], [([.missed], 1, 0)], [([.found 1008 true], 1, 0)], [([.found 999 false], 1, 1)]] ∧
      [(home .lost), quarantined].map (fun x => ((after (.grantOutcome 0 3 (statusBurst 8)) (awaiting x)).slot 0 3).service.map (fun r => r.b)) =
        [some 40, some 40] := by
  decide +kernel

/-- R13, R95: packets of 63 and 64 bytes, one that ends with the terminator in the last byte it may, a walk that meets no terminator;
the spare bit of the line byte set, another line, another space, a changed fill and a changed check. -/
theorem witness_ArrivalsAreReportedCorrectedAndReRanged_reads :
    let see := fun (r : Unpacked) => (r.good, r.backlog, r.packets.map List.length)
    let reads := fun (space : Nat) (ps : List Packet) => see (unpackBurst 3 space (burstBytes 3 16777215 space ps))
    let changed := fun (i : Nat) (v : Byte) => see (unpackBurst 3 80 ((burstBytes 3 40 80 [packet 64]).set i v))
    [reads 80 [packet 63], reads 80 [packet 64], reads 76 [packet 64], reads 10 []] =
        [(false, 16777215, []), (true, 16777215, [64]), (true, 16777215, [64]), (true, 16777215, [])] ∧
      see (unpackBurst 3 75 ((burstBytes 3 40 74 [packet 64]).take 70 ++ List.replicate 5 0)) = (false, 40, []) ∧
      see (unpackBurst 3 81 (burstBytes 3 40 80 [packet 64])) = (false, 40, [64]) ∧
      see (unpackBurst 3 10 (burstBytes 131 40 10 [])) = (true, 40, []) ∧ see (unpackBurst 3 10 (burstBytes 4 40 10 [])) = (false, 40, []) ∧
      [changed 72 9, changed 0 131, changed 6 1, changed 79 7].map (fun r => r.1) = [true, false, false, false] := by
  decide +kernel

/-- R95: a packet of 2,000 bytes is taken, one of 2,001 is not. -/
theorem witness_ArrivalsAreReportedCorrectedAndReRanged_longest :
    let body := fun (n : Nat) => bytesOf 2 n ++ packet n ++ ([0, 0] : List Byte)
    [2000, 2001].map (fun n => (walkPackets 2 (body n)).map (fun r => (r.1.map List.length, r.2))) = [some ([2000], 2004), none] := by
  decide +kernel

/-- R96: the packet of a DATA burst goes to the uplink queue and is billed, or is stale. -/
theorem witness_ArrivalsAreReportedCorrectedAndReRanged_packets :
    let grant : Grant := { line := 3, kind := .data, start := 1000, length := 32 }
    let burst := some ({ e := 0, guard := darkGuard, bytes := burstBytes 3 40 80 [packet 64] } : Burst)
    let u := fun (a : AccountPos) => (after (.grantOutcome 0 3 burst) (lone { home .active with account := a } (expecting [grant]))).tree 0
    let reads := fun (ps : List Packet) => unpackBurst 3 (5 * (32 - 16)) (burstBytes 3 40 80 ps)
    [reads [packet 64], reads []].map (fun r => (r.good, r.backlog, r.packets.map List.length)) = [(true, 40, [64]), (true, 40, [])] ∧
      [u (.opened account), u .empty].map (fun T => (T.traffic.uplink.map (fun p => p.2.length), T.receiver.stale)) = [([64], 0), ([], 1)] := by
  decide +kernel

/-- R61: the eighth drifting burst, with 63 and 64 messages held, an offer held already, and a delay that cannot be reached. -/
theorem witness_ArrivalsAreReportedCorrectedAndReRanged_drift :
    let x := { home .active with eqd := 9, drift := { length := 7, sign := some .late }, misplaced := 2 }
    let held := fun (d : List (Line × Nat)) (n : Nat) (T : TreeState) => full n { T with engine := { T.engine with driftHeld := d } }
    let out := fun (x : Slot) (e : Int) (f : TreeState → TreeState) => after (.grantOutcome 0 3 (statusBurst e)) (awaiting x f)
    let see := fun (u : State) => ((u.slot 0 3).eqd, (u.slot 0 3).drift.length, (u.slot 0 3).driftDelay, (u.tree 0).engine.driftHeld)
    [out x 9 (full 63), out x 9 (full 64), out { x with drift := { length := 8, sign := some .late } } 9 (held [(4, 1), (3, 7)] 0), out x 10 (full 0),
        out { x with drift := { length := 7, sign := some .early } } 9 (full 0)].map see =
      [(0, 0, .unsent, []), (9, 8, .none, [(3, 0)]), (9, 8, .none, [(4, 1), (3, 0)]), (9, 0, .none, []), (9, 1, .none, [])] := by
  decide +kernel

/-- R62: the fourth misplaced burst, with a context free and with none. -/
theorem witness_ArrivalsAreReportedCorrectedAndReRanged_misplaced :
    let out := fun (f : TreeState → TreeState) => after (.grantOutcome 0 3 (statusBurst (-81))) (awaiting { home .active with eqd := 9, misplaced := 3 } f)
    let see := fun (u : State) => ((u.slot 0 3).state, (u.slot 0 3).misplaced, (u.tree 0).engine.contexts[(0 : Fin 4)].map (fun c => (c.line, c.provisional)))
    [out id, out (allBusy { context .rangeWait with line := 8 })].map see =
      [(.ranging, 0, some (3, 9)), (.active, 4, some (8, 622000))] ∧ ((out id).tree 0).planner.rangingList = [3] := by
  decide +kernel

/-- R99, R100: each state, and a run that ends with the SU 8 after the grant dark (1,026) or lit (1,027). -/
theorem witness_OverrunsAreChargedByState :
    let hears := fun (st : HomeState) (n runEnd : Nat) => after (.overrun 0 3 [true, true, false, true] runEnd) (awaiting (home st) (full n))
    let see := fun (u : State) => ((u.slot 0 3).state, (u.slot 0 3).overruns, (u.slot 0 3).cooldown, noticeKinds u)
    (awaiting (home .active)).inReset = false ∧ statusGrant 3 1000 = { line := 3, kind := .status, start := 1000, length := 18 } ∧ 1000 + 18 + 8 < 1027 ∧
      [hears .active 0 1027, hears .active 0 1026, hears .cooldown 63 1027, hears .free 0 1027, hears .assigned 0 1027, hears .ranging 0 1027,
        hears .lost 0 1027, hears .quarantined 0 1027].map see =
        [(.cooldown, 1, 400, [.overrun]), (.active, 0, 0, []), (.quarantined, 1, 0, [.quarantined]), (.free, 0, 0, []), (.assigned, 0, 0, []),
          (.ranging, 1, 0, []), (.lost, 1, 0, []), (.quarantined, 1, 0, [])] ∧
      ((hears .cooldown 64 1027).tree 0).receiver.muteWaits = [3] ∧ ((hears .active 0 1027).tree 0).receiver.overruns = 1 ∧
      see (after (.cooldownEnd 0 3) (lone { home .cooldown with cooldown := 1 })) = (.active, 0, 0, []) := by
  decide +kernel

/-- R94, R99: a burst found with a lit onset, and one whose outcome is still to come with a guard lit throughout, are not charged. -/
theorem test_lit_onset_is_not_charged :
    let found := fun (guard : GuardLight) => after (.grantOutcome 0 3 (some { e := 0, guard := guard, bytes := burstBytes 3 40 10 [] })) (awaiting (home .active))
    [after (.overrun 0 3 darkGuard 1027) (found litGuard), after (.overrun 0 3 litGuard 1027) (found [true, true, true, false]),
        after (.overrun 0 3 litGuard 1027) (awaiting (home .active))].map (fun u => (u.slot 0 3).overruns) = [0, 1, 0] := by
  decide +kernel

/-- 5.4: the receive frame of the worked overrun and rogue, its outcomes reported. -/
def workedFrame (extra : TreeState → TreeState := id) : State :=
  let g := fun (l : Line) (start length : Nat) (at_ : Int) (clean : Bool) =>
    ({ grant := { line := l, kind := .data, start := start, length := length }, mark := .found at_ clean, charged := false } : ListedGrant)
  let a := { frame5 [{ line := 5, kind := .data, start := 0, length := 4016 }, { line := 9, kind := .data, start := 4016, length := 256 },
                     { line := 17, kind := .data, start := 4272, length := 4873 }] with
    grants := [g 5 0 4016 0 true, g 9 4016 256 4015 true, g 17 4272 4873 4272 true], expected := 3, bad := 1 }
  State.reset.modTree 1 (fun T => extra { T with receiver := { T.receiver with lists := [{ a with plan := { a.plan with windows := [] } }] } })

/-- 5.4: light to 9,160 in home 17's run and a rogue at 12,000..12,040; without the rogue no dark light. -/
theorem test_frame_report_worked :
    let ends := fun (light : List Stretch) => ((after (.receiveFrameEnd 1 light) workedFrame).tree 1).watch.current
    ends [{ lo := 4, hi := 4016 }, { lo := 4019, hi := 4271 }, { lo := 4276, hi := 9160 }, { lo := 12000, hi := 12041 }] = { d := 1, n := 3, bb := 1, frames := 1 } ∧
      ends [{ lo := 4, hi := 4016 }, { lo := 4019, hi := 4271 }, { lo := 4276, hi := 9160 }] = { d := 0, n := 3, bb := 1, frames := 1 } := by
  decide +kernel

/-- A tree whose search runs a test that has counted all but one frame, in a rogue state, with the first frame of its periods and the test's m. -/
def counting (rogue : Rogue) (first m : Nat) : State :=
  workedFrame (fun T =>
    { T with watch := { T.watch with rogue := rogue, first := first, periodDue := none }
             search := { T.search with test := some { kind := .verify, group := { lo := 0, hi := 1 }, step := 1, observing := true, retry := [],
                                                      awaited := [], m := some m, span := 16, counted := 15, lit := 0 } } })

/-- A tree's frame count, the period due, the test's counts and the number of expected lists. -/
def counts (s : State) : Nat × Option Nat × Option (Nat × Nat) × Nat :=
  ((s.tree 1).watch.current.frames, (s.tree 1).watch.periodDue, (s.tree 1).search.test.map (fun x => (x.counted, x.lit)),
    (s.tree 1).receiver.lists.length)

/-- The same tree with its expected lists renumbered. -/
def renumbered (s : State) (n : Nat) : State :=
  s.modTree 1 (fun T => { T with receiver := { T.receiver with lists := T.receiver.lists.map (fun a => { a with plan := { a.plan with frame := n } }) } })

/-- The receive frame of that tree ends with one burst. -/
def frameEnd (s : State) : State := after (.receiveFrameEnd 1 [{ lo := 9153, hi := 9154 }]) s

/-- R104, R106, R116: the last frame of a period and the frames beside it, a tree that is SEARCHING, a test that has counted all but one frame. -/
theorem witness_ReceiveFramesAreReported :
    let s := counting .clear 0 4
    s.inReset = false ∧ (s.tree 1).receiver.lists.length = 1 ∧ (s.tree 1).watch.periodDue = none ∧
      [s, counting .searching 0 5, counting .clear 6 4].map (fun u => counts (frameEnd u)) =
        [(1, none, some (16, 1), 0), (0, none, some (15, 0), 0), (0, none, some (16, 1), 0)] := by
  decide +kernel

/-- The last frame of a period, the frame before it and the frame after it. -/
theorem witness_ReceiveFramesAreReported_period :
    [68, 69, 70].map (fun n => counts (frameEnd (renumbered (counting .clear 6 4) n))) =
      [(1, none, some (16, 1), 0), (1, some 6, some (16, 1), 0), (1, none, some (16, 1), 0)] := by
  decide +kernel

/-- R113, R116: a test without m counts every frame. -/
theorem witness_ReceiveFramesAreReported_without_m :
    let s := (counting .searching 0 4).modTree 1 (fun T => { T with search := { T.search with test := T.search.test.map (fun x => { x with m := none }) } })
    counts (frameEnd s) = (0, none, some (16, 1), 0) := by
  decide +kernel

/-- Whether the receive frame of a list ends as a dark-light frame under some light, with a run carried in or none, and whether a run goes on. -/
def darkFrame (carry : Bool) (a : ArrivalList) (light : List (Nat × Nat)) : Nat × Bool :=
  let s := State.reset.modTree 1 (fun T => { T with receiver := { T.receiver with lists := [a], carryRun := carry } })
  let R := ((after (.receiveFrameEnd 1 (light.map (fun x => { lo := x.1, hi := x.2 }))) s).tree 1).receiver
  (R.darkFrames, R.carryRun)

/-- A receive frame whose plan has a quiet portion, DATA bursts found in place (start, length, clean onset), and search and probe windows or not. -/
def lightFrame (quiet : Nat) (bursts : List (Nat × Nat × Bool)) (search probe : Bool) : ArrivalList :=
  let gs := bursts.map (fun b => ({ line := 5, kind := .data, start := b.1, length := b.2.1 } : Grant))
  let a := frame5 gs
  { a with plan := { a.plan with quiet := quiet, windows := [], search := search, probe := probe }
           grants := bursts.map (fun b => { grant := { line := 5, kind := .data, start := b.1, length := b.2.1 }, mark := .found b.1 b.2.2, charged := false }) }

/-- R103: the SU 15,048 before a search window whose idle stretch is of 31 SU and of 32, the edges of the windows, and a wholly quiet frame. -/
theorem witness_ReceiveFramesAreReported_watched :
    let dark := fun (quiet : Nat) (search probe : Bool) (su : Nat) => (darkFrame false (lightFrame quiet [] search probe) [(su, su + 1)]).1
    [dark 15018 true false 15034, dark 15017 true false 15034, dark 15017 true false 15040, dark 15017 true false 15041, dark 15017 true false 15025,
        dark 15017 true false 15024] = [0, 1, 1, 0, 1, 0] ∧
      [dark 15049 true false 15048, dark 15049 true false 15049, dark 15049 true false 15560, dark 15049 true false 15561, dark 15561 false true 15560,
        dark 15561 false true 15561, dark 15561 false true 15624, dark 15561 false true 15625] = [0, 1, 1, 0, 0, 1, 1, 0] ∧
      [dark 15625 false false 0, dark 15625 false false 15624] = [0, 0] := by
  decide +kernel

/-- R99: light from a burst of [0, 100) that goes on to 400, after one dark SU, and past a second burst found at 200; light of its guard; a burst with
a lit onset; a run that passes into the next frame, and one carried in. -/
theorem witness_ReceiveFramesAreReported_runs :
    let one := lightFrame 0 [(0, 100, true)] false true
    let two := fun (clean : Bool) => lightFrame 0 [(0, 100, true), (200, 100, clean)] false true
    [darkFrame false one [(4, 400)], darkFrame false one [(4, 399), (400, 401)], darkFrame false (two true) [(4, 400)],
        darkFrame false (two false) [(4, 400)], darkFrame false (two false) [(4, 308)], darkFrame false one [(4, 15625)],
        darkFrame false (two true) [(4, 15625)], darkFrame false (two false) [(4, 15625)], darkFrame true (lightFrame 0 [] false true) [(0, 15625)],
        darkFrame true (lightFrame 0 [] false true) [(0, 400)], darkFrame true (lightFrame 0 [] false true) [(1, 400)]] =
      [(0, false), (1, false), (0, false), (1, false), (0, false), (0, true), (0, true), (1, false), (0, true), (0, false), (1, false)] := by
  decide +kernel

/-- A period of tree 3 has ended with the counts given. -/
def judged (rogue : Rogue) (auto : Bool) (d n bb : Nat) : State :=
  State.reset.modTree 3 (fun T => { T with settings := { T.settings with autoSearch := auto }
                                           watch := { T.watch with rogue := rogue, current := { d := d, n := n, bb := bb, frames := 64 }, periodDue := some 6400 } })

/-- 5.5: D = 34 starts a search, and so does Bb = 600 of N = 2,048; the thresholds and the bad-burst rule at their edges. -/
theorem witness_WatchPeriodsAreJudged :
    let out := fun (s : State) => ((after (.watchPeriodEnd 3) s).tree 3).watch.rogue
    (judged .clear true 34 2048 3).inReset = false ∧ ((judged .clear true 34 2048 3).tree 3).watch.periodDue = some 6400 ∧
      [judged .clear true 34 2048 3, judged .clear true 0 2048 600, judged .clear false 8 0 0, judged .clear false 7 31 31, judged .clear false 0 32 7,
        judged .clear false 0 32 8, judged .suspect true 2 32 7, judged .suspect true 2 32 8, judged .suspect true 3 0 0, judged .searching true 34 0 0,
        judged .foreign true 2 32 32, judged .foreign true 3 0 0, judged .unresolved true 2 0 0, judged .unresolved true 3 0 0].map out =
        [.searching, .searching, .suspect, .clear, .clear, .suspect, .clear, .suspect, .suspect, .searching, .clear, .foreign, .clear, .unresolved] ∧
      noticeKinds (after (.watchPeriodEnd 3) (judged .clear true 34 2048 3)) = [.darkLight] ∧
      ((after (.watchPeriodEnd 3) (judged .clear false 8 0 0)).tree 3).watch.last = { d := 8, n := 0, bb := 0, frames := 64 } := by
  decide +kernel

/-! ## The isolation search -/

/-- 6.7: the snapshot of the worked search on tree 2. -/
def snapshot : List Line := [2, 5, 8, 11, 14, 20, 23, 31, 40, 44]

/-- A group of positions. -/
def group (lo hi : Nat) : Group := { lo := lo, hi := hi }

/-- A test of the worked search whose span of 16 is complete, with `lit` dark-light frames, the stack and the muted lines given. -/
def tested (kind : TestKind) (g : Group) (lit : Nat) (stack : List Group) (muted : List Line) (restarts : Nat := 0) : State :=
  State.reset.modTree 2 (fun T =>
    { T.mapSlots (fun l x => if l ∈ snapshot then { x with state := .active, muted := decide (l ∈ muted) } else x) with
      framer := { T.framer with urgent := [] }
      watch := { T.watch with rogue := .searching }
      search := { T.search with
        running := true, snapshot := snapshot, stack := stack, steps := 5, restarts := restarts
        test := some { kind := kind, group := g, step := 5, observing := true, retry := [], awaited := [], m := none, span := 16, counted := 16, lit := lit } } })

/-- What a span end leaves: the test and its group, the stack, the messages offered, and the outcome of a search that has ended. -/
def verdict (s : State) : Option (TestKind × Group) × List Group × List LineMsg × Option SearchOutcome :=
  let T := (after (.spanEnd 2) s).tree 2
  (T.search.test.map (fun x => (x.kind, x.group)), T.search.stack, T.framer.urgent, T.search.last.map (fun x => x.outcome))

/-- 6.7: the verdicts of tests 0 to 3. -/
theorem test_search_worked_splits :
    [tested .verify (group 0 10) 0 [] snapshot, tested .split (group 0 10) 2 [] [20, 23, 31, 40, 44],
        tested .split (group 0 5) 1 [group 5 10] [8, 11, 14, 20, 23, 31, 40, 44]].map verdict =
      [(some (.split, group 0 10), [], [.unmute 2 (some 6), .unmute 5 (some 6), .unmute 8 (some 6), .unmute 11 (some 6), .unmute 14 (some 6)], none),
        (some (.split, group 0 5), [group 5 10], [.mute 8 (some 6), .mute 11 (some 6), .mute 14 (some 6)], none),
        (some (.split, group 2 5), [group 5 10], [.unmute 8 (some 6)], none)] := by
  decide +kernel

/-- 6.7: the verdicts of tests 4, 5, 6 and 13. -/
theorem test_search_worked_culprit :
    [tested .split (group 3 5) 9 [group 5 10] [14, 20, 23, 31, 40, 44], tested .single (group 3 4) 2 [group 4 5, group 5 10] [14, 20, 23, 31, 40, 44],
        tested .confirm (group 3 4) 1 [group 4 5, group 5 10] [11, 14, 20, 23, 31, 40, 44], tested .single (group 9 10) 0 [] []].map verdict =
      [(some (.single, group 3 4), [group 4 5, group 5 10], [], none), (some (.confirm, group 3 4), [group 4 5, group 5 10], [.mute 11 (some 6)], none),
        (some (.single, group 4 5), [group 5 10], [.unmute 14 (some 6)], none), (none, [], [], some .done)] ∧
      ((after (.spanEnd 2) (tested .confirm (group 3 4) 1 [group 4 5] [11, 14])).slot 2 11).cause = some .search := by
  decide +kernel

/-- R118 to R124: the other endings, a member that is no longer testable, and the restarts 1 and 2. -/
theorem witness_SpanEndsGiveTheirVerdict :
    let freed := fun (s : State) => s.modSlot 2 11 (fun x => { x with state := .free })
    let restart := fun (n : Nat) => tested .confirm (group 3 4) 2 [] [11] n
    let ends := fun (s : State) => (((after (.spanEnd 2) s).tree 2).search.last.map (fun x => x.outcome), ((after (.spanEnd 2) s).tree 2).watch.rogue)
    (tested .verify (group 0 10) 2 [] []).inReset = false ∧
      ((tested .verify (group 0 10) 2 [] []).tree 2).search.test.map (fun x => (x.observing, x.span, x.counted)) = some (true, 16, 16) ∧
      [tested .verify (group 0 10) 2 [] snapshot, tested .verify (group 0 0) 1 [] [], tested .single (group 9 10) 1 [] [], restart 2].map ends =
        [(some .foreign, .foreign), (some .done, .clear), (some .done, .clear), (some .unresolved, .unresolved)] ∧
      ((after (.spanEnd 2) (restart 1)).tree 2).search.restarts = 2 ∧
      [restart 1, freed (tested .single (group 3 4) 2 [group 5 10] []), freed (tested .confirm (group 3 4) 1 [group 5 10] [])].map (fun s => (verdict s).1) =
        [some (.verify, group 0 10), some (.split, group 5 10), some (.split, group 5 10)] ∧
      ((after (.spanEnd 2) (tested .verify (group 0 10) 2 [] [8])).tree 2).search.release = [8] := by
  decide +kernel

/-- R119, R120: every member of the whole group but the one at position 7, line 31, has become FREE: the group is tested as it was popped. -/
theorem witness_SpanEndsGiveTheirVerdict_one_testable :
    let alone := fun (s : State) => s.modTree 2 (fun T => T.mapSlots (fun l x => if l = 31 then x else { x with state := .free }))
    let g := group 0 10
    [tested .verify g 0 [] [31], tested .single g 2 [] [], tested .single g 1 [] []].map (fun s => (verdict (alone s)).1) =
        [some (.single, g), some (.confirm, g), none] ∧
      ((after (.spanEnd 2) (alone (tested .confirm g 1 [] [31]))).slot 2 31).cause = some .search := by
  decide +kernel

/-- R119: only the members at positions 8 and 9 of ten are testable: the lower half is cleared without a test, and so is that of the upper half, and
the half that has one is split; a group without a testable member before it is discarded. -/
theorem witness_SpanEndsGiveTheirVerdict_upper :
    let alone := fun (ls : List Line) (s : State) => s.modTree 2 (fun T => T.mapSlots (fun l x => if l ∈ ls then x else { x with state := .free }))
    let seen := fun (s : State) => ((verdict s).1, (verdict s).2.1)
    [seen (alone [40, 44] (tested .verify (group 0 10) 0 [] [])), seen (alone [31, 40, 44] (tested .split (group 0 5) 0 [group 5 10] [])),
        seen (alone [20, 44] (tested .single (group 0 1) 0 [group 1 5, group 5 10] [])), seen (alone [44] (tested .single (group 0 1) 0 [group 1 5, group 5 10] []))] =
      [(some (.split, group 8 10), []), (some (.split, group 7 10), []), (some (.split, group 5 10), []), (some (.single, group 5 10), [])] ∧
      seen (tested .confirm (group 3 4) 1 [group 4 5, group 5 10] [11]) = (some (.single, group 4 5), [group 5 10]) := by
  decide +kernel

/-- R120: the culprit of a CONFIRM test is found in RANGING with a final DELAY in the queue. -/
theorem witness_SpanEndsGiveTheirVerdict_ranging :
    let s := (tested .confirm (group 3 4) 1 [group 4 5] [11, 14]).modTree 2 (fun T =>
      { T.modSlot 11 (fun x => { x with state := .ranging }) with framer := { T.framer with ordinary := [.delay 11 5 .final] } })
    let u := after (.spanEnd 2) s
    (s.slot 2 11).state = .ranging ∧ (u.slot 2 11).state = .quarantined ∧ (u.tree 2).framer.ordinary = [.delay 11 5 .abandoned] := by
  decide +kernel

theorem witness_SearchRequestsStartAbortAndRead :
    let s := lone (home .active) (fun T => withContext (context .rangeWait)
      { T with engine := { T.engine with window := some (window false) }, framer := { T.framer with ordinary := [.call 0 0 9] } })
    let idle := tested .verify (group 0 10) 0 [] []
    let u := after (.startSearch (ctl 0)) s
    [ReqKind.startSearch, .abortSearch, .readSearch].all (s.ready (ctl 0)) = true ∧ (s.tree 0).watch.rogue = .clear ∧
      [after (.startSearch (ctl 4)) s, after (.startSearch (ctl 2)) idle, u, after (.abortSearch (ctl 15)) s, after (.abortSearch (ctl 0)) s,
        after (.abortSearch (ctl 2)) idle, after (.readSearch (ctl 4)) s, after (.readSearch (ctl 3)) s].map code =
        [some .badValue, some .busy, some .accepted, some .badValue, some .conflict, some .done, some .badValue, some .done] ∧
      (u.tree 0).engine.window = none ∧ (u.tree 0).engine.skipped = 1 ∧ (u.tree 0).engine.contexts[(0 : Fin 4)] = none ∧ (u.slot 0 3).state = .free ∧
      (u.tree 0).watch.rogue = .searching ∧ ((after (.abortSearch (ctl 2)) idle).tree 2).watch.rogue = .suspect ∧
      ((after (.startSearch (ctl 0)) (lone (home .active))).tree 0).search.test.map (fun x => (x.group, x.awaited, x.retry)) = some (group 0 1, [3], []) ∧
      ((after (.startSearch (ctl 0)) (lone (home .active) (full 64))).tree 0).search.test.map (fun x => (x.awaited, x.retry)) = some ([], [(3, true)]) := by
  decide +kernel

/-- A NEW context at line 3 of tree 0 and a RETURN one at line 5, with `n` messages held. -/
def abandoned (n : Nat) : State :=
  (lone { Slot.free with state := .ranging, link := some 28 } (fun T => full n (withContext (context .rangeWait)
    { T.modSlot 5 (fun _ => { home .ranging with link := some 32 }) with
      engine := { T.engine with contexts := T.engine.contexts.set 1 (some { context .rangeWait with serial := 8, line := 5, kind := .returning }) } }))).withDirectory
    [(28, { serial := 7, body := .present 0 3 (.listed none) true none }), (32, { serial := 8, body := .present 0 5 .opened false none })]

/-- R64: a search start with 60 and 64 messages held. -/
theorem witness_SearchRequestsStartAbortAndRead_abandoned :
    let u := fun (n : Nat) => after (.startSearch (ctl 0)) (abandoned n)
    let v := u 60
    (abandoned 60).ready (ctl 0) .startSearch = true ∧ ((abandoned 60).tree 0).framer.count = 60 ∧
      (v.slot 0 3).state = .free ∧ (v.slot 0 5).state = .lost ∧ (v.slot 0 5).account = .opened account ∧ (v.slot 0 5).service = some record ∧
      bodies v = [(28, .expected none true), (32, .present 0 5 .opened false (some 0))] ∧ (v.tree 0).search.snapshot = [5] ∧
      [LineMsg.dismiss 3, .dismiss 5].map (fun m => (v.tree 0).framer.urgent.count m) = [1, 1] ∧
      ((u 64).tree 0).engine.dismissHeld = [3, 5] := by
  decide +kernel

/-- R64: the HOME_LOST of that search start goes out at once, or waits while the controller link sends. -/
theorem witness_SearchRequestsStartAbortAndRead_notice :
    let busyLink := fun (s : State) => { s with links := { s.links with controller := { s.links.controller with sending := some (.reply replyInHand) } } }
    noticeKinds (after (.startSearch (ctl 0)) (busyLink (abandoned 0))) = [.homeLost] ∧
      sends (after (.startSearch (ctl 0)) { abandoned 0 with journal := { (abandoned 0).journal with condition := .ready } }) = some (.inr .homeLost) := by
  decide +kernel

/-- R109: the search of a tree ends while a period's end is due, and then the period ends: the verdict stays (log entry 63). -/
theorem witness_WatchPeriodsAreJudged_ended :
    let due := fun (s : State) => s.modTree 2 (fun T => { T with watch := { T.watch with periodDue := some 6400 } })
    let u := after (.spanEnd 2) (due (tested .verify (group 0 10) 2 [] []))
    let v := after (.watchPeriodEnd 2) u
    (u.tree 2).watch.endedFirst = true ∧ (u.tree 2).watch.rogue = .foreign ∧ (v.tree 2).watch.rogue = .foreign ∧ (v.tree 2).watch.endedFirst = false ∧
      ((after (.watchPeriodEnd 2) (due v)).tree 2).watch.rogue = .clear ∧
      ((after (.spanEnd 2) (tested .verify (group 0 10) 2 [] [])).tree 2).watch.endedFirst = false ∧
      ((after (.abortSearch (ctl 2)) (due (tested .verify (group 0 10) 2 [] []))).tree 2).watch.endedFirst = true := by
  decide +kernel

/-- R115, R117: two offers wait with 62 and with 64 messages held. -/
theorem witness_SearchMessagesDrainAndReleasesAreTried :
    let waits := fun (n : Nat) => (tested .split (group 0 10) 0 [] []).modTree 2 (fun T => full n { T with
      search := { T.search with test := T.search.test.map (fun x => { x with observing := false, retry := [(2, true), (5, false)] }) } })
    let drains := fun (n : Nat) => (tested .split (group 0 10) 0 [] [2, 5]).modTree 2 (fun T => full n { T with
      search := { T.search with running := false, test := none, release := [2, 5] } })
    let u := after (.searchOfferRetry 2) (waits 62)
    (waits 62).inReset = false ∧ ((waits 62).tree 2).framer.count + 2 = 64 ∧ ((waits 62).tree 2).search.test.map (fun x => x.retry) = some [(2, true), (5, false)] ∧
      (u.tree 2).search.test.map (fun x => (x.retry, x.awaited)) = some ([], [2, 5]) ∧ (u.slot 2 2).muted = true ∧
      ((after (.searchOfferRetry 2) (waits 64)).tree 2).search.test.map (fun x => x.retry) = some [(2, true), (5, false)] ∧
      ((drains 62).tree 2).search.release.Nodup ∧ ((after (.releaseListDrain 2) (drains 62)).tree 2).search.release = [] ∧
      ((after (.releaseListDrain 2) (drains 62)).slot 2 5).muted = false ∧ ((after (.releaseListDrain 2) (drains 64)).tree 2).search.release = [2, 5] := by
  decide +kernel

theorem witness_SearchMessagesDrainAndReleasesAreTried_release :
    let s := fun (f : TreeState → TreeState) => lone { home .quarantined with muted := true } f
    let u := fun (f : TreeState → TreeState) => after (.releaseHome (ctl 0) 3) (s f)
    let see := fun (v : State) => (code v, (v.slot 0 3).state, (v.tree 0).search.pending)
    (s id).ready (ctl 0) .releaseHome = true ∧
      [after (.releaseHome (ctl 4) 3) (s id), after (.releaseHome (ctl 0) 128) (s id), after (.releaseHome (ctl 3) 127) (s id)].map code =
        [some .badValue, some .badValue, some .conflict] ∧
      [u (fun T => { T with search := { T.search with running := true } }), u (fun T => { T with search := { T.search with pending := [3] } }),
        u (allBusy { context .rangeWait with line := 9 }), u (full 64), u (full 63)].map see =
        [(some .conflict, .quarantined, []), (some .accepted, .quarantined, [3]), (some .accepted, .quarantined, [3]), (some .accepted, .quarantined, [3]),
          (some .accepted, .ranging, [])] := by
  decide +kernel

/-! ## The traffic buffers -/

/-- The worked fill's tree (7.4). -/
def filling : TreeState :=
  let slot := fun (dw : Nat) (th : QuotaState) (allowance : Nat) (q : List Packet) =>
    { Slot.free with state := .active, service := some { record with live := { record.live with dw := dw } }
                     account := .opened { account with quotaState := th }, allowance := allowance, queue := q }
  let T := ((TreeState.reset.modSlot 5 (fun _ => slot 1 .normal 0 [packet 1500, packet 1500, packet 1500])).modSlot 9
    (fun _ => slot 2 .normal 0 [packet 2000, packet 2000, packet 2000, packet 2000])).modSlot 17 (fun _ => slot 1 .throttled 1800 [packet 1500, packet 1500, packet 64])
  { T with traffic := { T.traffic with rotation := 5, broadcast := [packet 1000, packet 1000] } }

/-- 7.4: the packets in the order placed, the pointer, home 17's deficit and allowance, and the blocks released. -/
theorem test_fill_worked :
    let r := filling.fill 299934
    r.2.map (fun p => p.1) = [none, none, some 5, some 9, some 17, some 5, some 9, some 9, some 5, some 9] ∧ r.1.traffic.rotation = 10 ∧
      r.1.traffic.openTurn = false ∧ ((r.1.slot 17).deficit, (r.1.slot 17).allowance, (r.1.slot 17).queue.length) = (18, 500, 2) ∧
      filling.downHold - r.1.downHold = 128 := by
  decide +kernel

/-- R138: a turn that its deficit, its allowance and the capacity end at the last byte and one before it, and one that empties the queue. -/
theorem witness_FillsFollowTheRotation_turns :
    let turn := fun (th : Bool) (deficit allowance capacity : Nat) =>
      let r := runTurn th deficit allowance capacity [packet 100, packet 200]
      (r.placed.length, r.deficit, r.allowance, r.capacity, r.ending)
    [turn false 300 0 308, turn false 299 0 308, turn true 300 300 308, turn true 3000 299 308, turn false 300 0 307, turn false 99 0 0] =
      [(2, 0, 0, 0, .goOn), (1, 199, 0, 204, .goOn), (2, 0, 0, 0, .goOn), (1, 1999, 199, 204, .goOn), (1, 200, 0, 203, .fillEnds), (0, 99, 0, 0, .goOn)] := by
  decide +kernel

/-- R138: a fill that ends in a turn leaves it open; an open turn of a candidate resumes without a quantum, and one of another line starts at the
next. -/
theorem witness_FillsFollowTheRotation :
    let fill := fun (T : TreeState) (q : Line) (capacity : Nat) =>
      let r := { T with traffic := { T.traffic with rotation := q, openTurn := true, broadcast := [] } }.fill capacity
      (r.2.map (fun p => p.1.map (fun l => l.val)), r.1.traffic.rotation.val, r.1.traffic.openTurn)
    (filling.slot 5).state = .active ∧ (filling.slot 5).queue.head?.map List.length = some 1500 ∧ (filling.slot 6).queue = [] ∧
      [fill filling 5 1504, fill (filling.modSlot 5 (fun x => { x with deficit := 1500 })) 5 1504, fill filling 6 2004,
        fill (filling.modSlot 9 (fun x => { x with deficit := 2000 })) 9 2003] =
        [([], 9, true), ([some 5], 9, true), ([some 9], 17, true), ([], 9, true)] := by
  decide +kernel

/-- Line 3 of tree 0 with a queue of `n` one-block packets, and a broadcast queue of `m`. -/
def holdingBlocks (st : HomeState) (n m : Nat) : State :=
  lone { home st with queue := List.replicate n [0] } (fun T => { T with traffic := { T.traffic with broadcast := List.replicate m [0] } })

/-- R132 to R134: lengths 63, 64, 2,000 and 2,001, queues that end at 512 and at 513 blocks, and each state. -/
theorem witness_ArrivingPacketsAreAdmittedAndThePauseIsJudged :
    let out := fun (s : State) (b : Bool) (n : Nat) => after (.trunkPacketArrival 0 3 b (packet n)) s
    let see := fun (u : State) => (u.trunk.malformed, ((u.slot 0 3).queue.length, (u.slot 0 3).tailDrops), ((u.tree 0).traffic.broadcast.length, (u.tree 0).traffic.broadcastDrops), (u.tree 0).traffic.noHome)
    (holdingBlocks .active 496 496).inReset = false ∧ queueBlocks ((holdingBlocks .active 496 496).slot 0 3).queue = 496 ∧ (2000 + 127) / 128 = 16 ∧
      [out (holdingBlocks .active 0 0) false 63, out (holdingBlocks .active 0 0) true 2001, out (holdingBlocks .active 0 0) false 64,
        out (holdingBlocks .lost 496 0) false 2000, out (holdingBlocks .active 497 0) false 2000, out (holdingBlocks .free 0 496) true 2000,
        out (holdingBlocks .free 0 497) true 2000, out (holdingBlocks .ranging 0 0) false 64].map see =
        [(1, (0, 0), (0, 0), 0), (1, (0, 0), (0, 0), 0), (0, (1, 0), (0, 0), 0), (0, (497, 0), (0, 0), 0), (0, (497, 1), (0, 0), 0), (0, (0, 0), (497, 0), 0),
          (0, (0, 0), (497, 1), 0), (0, (0, 0), (0, 0), 1)] := by
  decide +kernel

/-- The homes 0 to 40 of tree 0 hold 512 blocks each and home 41 holds `n`: with 512 the shared free count is 1,024. -/
def nearlyFull (n : Nat) : State :=
  State.reset.modTree 0 (fun T => T.mapSlots (fun l x =>
    if l.val < 41 then { x with state := .active, queue := List.replicate 512 [0] }
    else if l.val = 41 then { x with state := .active, queue := List.replicate n [0] } else { x with state := .active }))

/-- R136: an admission that leaves 1,024 blocks of the shared region free, and one that leaves 1,023. -/
theorem witness_ArrivingPacketsAreAdmittedAndThePauseIsJudged_pause :
    let out := fun (n : Nat) => after (.trunkPacketArrival 0 42 false (packet 64)) (nearlyFull n)
    (nearlyFull 512).sharedFree = 1024 ∧ ((out 511).trunk.pauseOn, (out 511).sharedFree) = (false, 1024) ∧
      ((out 512).trunk.pauseOn, (out 512).trunk.lastPause, (out 512).trunk.pauseRequests) = (true, some 500, 1) := by
  decide +kernel

/-- The same with the pause ON and seven requests sent, and every tree's frame started where `started` says so. -/
def paused (n : Nat) (started : Bool := false) : State :=
  let s := { nearlyFull n with trunk := { Trunk.reset with pauseOn := true, lastPause := some 500, pauseRequests := 7 } }
  let start := fun (t : TreeId) (s : State) => s.modTree t (fun T => { T with started := started })
  start 0 (start 1 (start 2 (start 3 s)))

/-- R136: a dismissal and an expulsion that leave 2,047 and 2,048 blocks of the shared region free, and a restart of the tree. -/
theorem witness_ArrivingPacketsAreAdmittedAndThePauseIsJudged_freed :
    let see := fun (u : State) => (u.sharedFree, u.trunk.pauseOn, u.trunk.lastPause, u.trunk.pauseRequests)
    (paused 0).inReset = false ∧ [ReqKind.dismissHome, .expelHome, .restartTree].all ((paused 0).ready (ctl 0)) = true ∧
      ((paused 0).slot 0 0).state = .active ∧ ((paused 0).tree 0).framer.count < 64 ∧
      [after (.dismissHome (ctl 0) 0) (paused 1), after (.dismissHome (ctl 0) 0) (paused 0), after (.expelHome (ctl 0) 0) (paused 1),
        after (.expelHome (ctl 0) 0) (paused 0), after (.restartTree (ctl 0)) { State.reset with trunk := (paused 0).trunk }].map see =
        [(2047, true, some 500, 7), (2048, false, some 0, 7), (2047, true, some 500, 7), (2048, false, some 0, 7), (20480, false, some 0, 7)] := by
  decide +kernel

/-- R136: a frame start in the frame, and one at the boundary, where the pause stays ON; and the same where it turns OFF. -/
theorem witness_ArrivingPacketsAreAdmittedAndThePauseIsJudged_again :
    let see := fun (u : State) => (u.trunk.pauseOn, u.trunk.lastPause, u.trunk.pauseRequests)
    let empty := fun (started : Bool) => { paused 0 started with trees := Vector.replicate 4 { TreeState.reset with started := started } }
    ((paused 0 true).tree 1).receiver.lists.length = 0 ∧ (paused 0 true).allStarted = true ∧
      [after (.frameStart 1) (paused 0), after (.frameStart 1) (paused 0 true), after (.frameStart 1) (empty false), after (.frameStart 1) (empty true)].map see =
        [(true, some 500, 7), (true, some 500, 8), (false, some 0, 7), (false, some 0, 8)] := by
  decide +kernel

theorem witness_EveryStepKeepsTheBufferPoolLaw :
    State.reset.poolLawful ∧ (nearlyFull 512).poolLawful ∧ step (nearlyFull 512) = .next (nearlyFull 512) := by
  refine ⟨?_, ?_, rfl⟩
  · show (∀ t : TreeId, _ ∧ _ ∧ ∀ l : Line, _) ∧ _
    decide +kernel
  · show (∀ t : TreeId, _ ∧ _ ∧ ∀ l : Line, _) ∧ _
    decide +kernel

/-- R142, R143: the pointer at 3 with packets on the trees 1 and 2, a hold, and a request of duration 0. -/
theorem witness_TheTrunkServesTheTreesAndBuffersAreRead :
    let s := fun (k : Trunk) => (({ State.reset with trunk := k }).modTree 1 (fun T => { T with traffic := { T.traffic with uplink := [(0, packet 64)] } })).modTree 2
      (fun T => { T with traffic := { T.traffic with uplink := [(5, packet 64), (6, packet 64)] } })
    let see := fun (u : State) => (u.trunk.sending, u.trunk.pointer, u.trunk.held, (u.tree 2).traffic.uplink.length)
    (s { Trunk.reset with pointer := 3 }).inReset = false ∧
      [after .trunkTransmitComplete (s { Trunk.reset with pointer := 3, sending := some 2 }), after .trunkTransmitComplete (s { Trunk.reset with pointer := 3, sending := some 2, held := some 9 }),
        after (.trunkPauseRequest 1) (s Trunk.reset), after (.trunkPauseRequest 0) (s { Trunk.reset with pointer := 2, held := some 9 }),
        after .trunkHoldEnd (s { Trunk.reset with held := some 9 }), after .trunkHoldEnd { State.reset with trunk := { Trunk.reset with held := some 9 } }].map see =
        [(some 1, 2, none, 1), (none, 3, some 9, 1), (none, 0, some 1, 2), (some 2, 3, none, 2), (some 1, 2, none, 2), (none, 0, none, 0)] := by
  decide +kernel

theorem witness_TheTrunkServesTheTreesAndBuffersAreRead_buffers :
    let s := holdingBlocks .active 5 7
    let read := fun (tree : Nat) (line : Option Nat) => after (.readBuffers (ctl tree) line) s
    s.ready (ctl 15) .readBuffers = true ∧
      [read 15 none, read 15 (some 0), read 4 none, read 14 none, read 0 (some 128), read 3 none, read 0 (some 127)].map code =
        [some .done, some .badValue, some .badValue, some .badValue, some .badValue, some .done, some .done] ∧
      (match values (read 0 (some 3)) with
        | some (.buffers v) => decide (v.downFree = [2036]) && decide (v.upFree = [1024]) && decide (v.sharedFree = 20480)
        | _ => false) = true := by
  decide +kernel

/-! ## The usage meter -/

/-- The lone home with the account, the clock and the schedule given. -/
def metered (a : Account) (clock : Option Clock) (schedule : List ChangePoint) (n : Nat := 0) : State :=
  let s := queued n (lone { home .active with account := .opened a })
  { s with meter := { s.meter with clock := clock, schedule := schedule } }

/-- 8.6: the schedule of the worked sequence. -/
def schedule : List ChangePoint := [{ second := 25200, band := 1 }, { second := 68400, band := 2 }, { second := 82800, band := 0 }]

/-- The account of 8.6, opened on day 120 at 07:00 with band 1. -/
def morning : Account := { account with start := 10393200, band := 1, clockUnset := false, counts := { up := 5, down := 6, outage := 7 } }

/-- 8.6: at 19:00 of day 120, a change point, the record has the stamps 10,393,200 and 10,436,400, and the next interval band 2. -/
theorem witness_SecondEventsAgeTheDirectoryAndExpiriesAreTaken_change_point :
    let s := { metered morning (some { day := 120, second := 68399 }) schedule 600 with time := { Timebase.reset with frame := 4000, secondsDue := [4000] } }
    let u := after .secondEvent s
    s.inReset = false ∧ s.storesWf = true ∧ s.time.secondsDue = [4000] ∧ (∃ p ∈ s.meter.schedule, p.second = 68400) ∧
    (u.meter.queue[600]?.map (fun r => (r.kind, r.start, r.stop, r.band, r.counts)), (u.slot 0 3).account) =
      (some (.interval, 10393200, 10436400, 1, { up := 5, down := 6, outage := 7 }), .opened { morning with start := 10436400, band := 2, counts := {} }) := by
  decide +kernel

/-- R149, R150: the ranges of the clock, the bands at the edges of the points, before the first point, unset, and tariffs that clamp or do not rise.
-/
theorem witness_ClockAndTariffGiveTheBand :
    let s := fun (second : Nat) => metered account (some { day := 1, second := second }) schedule
    let clock := fun (day second : Nat) => after (.setClock (ctl 15) day second) State.reset
    let tariff := fun (ps : List (Nat × Nat)) => after (.setTariff (ctl 15) (ps.map (fun p => { second := p.1, band := p.2 }))) State.reset
    [ReqKind.setClock, .readClock, .setTariff, .readTariff].all (State.reset.ready (ctl 15)) = true ∧
      [(s 25200).band, (s 68399).band, (s 68400).band, (s 82800).band, (s 25199).band, (metered account none schedule).band, State.reset.band] = [1, 1, 2, 0, 0, 0, 0] ∧
      [clock 65535 86399, clock 65536 86400, clock 0 86400].map (fun u => (code u, field u, u.meter.clock)) =
        [(some .done, none, some { day := 65535, second := 86399 }), (some .clamped, some 1, some { day := 65535, second := 86399 }),
          (some .clamped, some 2, some { day := 0, second := 86399 })] ∧
      [tariff [], tariff [(5, 7), (86399, 0)], tariff [(5, 8), (86400, 0)], tariff [(5, 7), (86400, 9)], tariff [(5, 7), (5, 1)], tariff [(86399, 0), (90000, 0)]].map
        (fun u => (code u, field u)) = [(some .done, none), (some .done, none), (some .clamped, some 2), (some .clamped, some 3), (some .badValue, none), (some .badValue, none)] ∧
      ((after (.setClock (ctl 15) 1 25200) (metered account (some { day := 1, second := 5 }) schedule)).meter.queue.length,
        (after (.setClock (ctl 15) 1 6) (metered account (some { day := 1, second := 5 }) schedule)).meter.queue.length) = (1, 0) ∧
      [after (.readClock (ctl 15)) State.reset, after (.readTariff (ctl 15)) State.reset].map code = [some .done, some .done] := by
  decide +kernel

/-- R160 to R162: quotas 0, at the period bytes, just above, and with the warning level (7 / 8) at and above them; the edges of the ranges. -/
theorem witness_QuotasAreSetAndReset :
    let s := fun (st : QuotaState) => metered { account with period := 700, quotaState := st } none []
    let set := fun (st : QuotaState) (q : Nat) => after (.setQuota (ctl 0) (some 3) (some q) none) (s st)
    let see := fun (u : State) => match (u.slot 0 3).account with
      | .opened a => some (a.quotaState, a.throttled, noticeKinds u)
      | _ => none
    (s .normal).ready (ctl 0) .setQuota = true ∧ (s .normal).ready (ctl 0) .resetPeriod = true ∧
      [set .warned 0, set .normal 700, set .throttled 700, set .normal 701, set .normal 800, set .warned 801, set .throttled 802].map see =
        [some (.normal, false, []), some (.throttled, true, [.quotaReached]), some (.throttled, false, []), some (.warned, false, [.quotaWarning]),
          some (.warned, false, [.quotaWarning]), some (.warned, false, []), some (.normal, false, [])] ∧
      [after (.setQuota (ctl 4) (some 3) none none) (s .normal), after (.setQuota (ctl 0) (some 128) none none) (s .normal), after (.setQuota (ctl 4) none none none) (s .normal),
        after (.setQuota (ctl 0) (some 4) none none) (s .normal), after (.resetPeriod (ctl 4) (some 3)) (s .normal), after (.resetPeriod (ctl 0) (some 128)) (s .normal),
        after (.resetPeriod (ctl 16) none) (s .normal), after (.resetPeriod (ctl 0) (some 4)) (s .normal), after (.setQuota (ctl 15) (some 3) none none) (s .normal)].map code =
        [some .badValue, some .badValue, some .badValue, some .conflict, some .badValue, some .badValue, some .badValue, some .conflict, some .badValue] ∧
      [after (.setQuota (ctl 15) none (some 281474976710656) none) (s .normal), after (.setQuota (ctl 3) none (some 281474976710655) (some 8)) (s .normal),
        after (.setQuota (ctl 3) none none (some 0)) (s .normal)].map field = [some 2, some 3, some 3] ∧
      ((after (.setQuota (ctl 3) none none (some 0)) (s .normal)).tree 3).settings.warn = 1 ∧
      [after (.resetPeriod (ctl 15) none) (s .throttled), after (.resetPeriod (ctl 0) (some 3)) (s .throttled)].map see = [some (.normal, false, []), some (.normal, false, [])] ∧
      values (after (.resetPeriod (ctl 15) none) (s .throttled)) = some (.count 1) := by
  decide +kernel

/-- R151, R154, R156, R163: two open accounts with 1,022, 1,023 and 1,024 records waiting; READ_USAGE of each account position. -/
theorem witness_ClosesAndUsageReads :
    let s := fun (n : Nat) => (metered morning (some { day := 120, second := 68400 }) schedule n).modSlot 0 9 (fun _ => { Slot.free with state := .active, account := .opened morning })
    let due := (s 0).modSlot 0 4 (fun x => { x with account := .due (recordOf morning 0 4 .final false none) none })
    let close := fun (tree n : Nat) => after (.closeAll (ctl tree)) (s n)
    (s 0).ready (ctl 15) .closeAll = true ∧ (s 0).ready (ctl 15) .readUsage = true ∧ (s 1022).meter.queue.length = 1022 ∧
      [1022, 1023, 1024].map (fun n => (values (close 0 n), ((close 0 n).slot 0 9).account)) =
        [(some (.closes 2 0), .opened { morning with start := 10436400, band := 2, counts := {} }), (some (.closes 1 1), .opened { morning with merged := true }),
          (some (.closes 0 2), .opened { morning with merged := true })] ∧
      [close 4 0, close 16 0, close 3 0, after (.readUsage (ctl 15) none) (s 0), after (.readUsage (ctl 0) none) (s 0), after (.readUsage (ctl 4) (some 3)) (s 0),
        after (.readUsage (ctl 0) (some 128)) (s 0), after (.readUsage (ctl 0) (some 127)) (s 0)].map code =
        [some .badValue, some .badValue, some .done, some .done, some .badValue, some .badValue, some .badValue, some .done] ∧
      values (after (.readUsage (ctl 0) (some 3)) (s 0)) = some (.usage (.opened morning 0)) ∧
      values (after (.readUsage (ctl 0) (some 4)) due) = some (.usage (.due (recordOf morning 0 4 .final false none) none 0)) := by
  decide +kernel

/-- R141, R147, R157, R161: an uplink queue that ends at 1,024 and 1,025 blocks, each quota state, and a count at its top. -/
theorem witness_UpstreamPacketsAreBilled :
    let top := 281474976710655
    let s := fun (a : Account) (n : Nat) (blocks : Nat) => (metered a none [] n).modTree 0 (fun T =>
      { T with traffic := { T.traffic with uplink := List.replicate blocks (9, [0]) } })
    let quota := fun (st : QuotaState) (q : Nat) => { account with quota := q, quotaState := st, period := 0 }
    let see := fun (u : State) => match (u.slot 0 3).account with
      | .opened a => ([a.counts.up, a.carries.up, a.period, u.meter.queue.length, (u.tree 0).traffic.uplinkDrops], a.merged, a.quotaState, noticeKinds u)
      | _ => ([], false, .normal, [])
    let out := fun (s : State) => see (s.admitUplink 0 3 (packet 64))
    ((s account 0 1023).slot 0 3).account = .opened account ∧ ((s account 0 1023).tree 0).upHold = 1023 ∧
      [s account 0 1024, s account 0 1023, s (quota .normal 74) 0 0, s (quota .normal 73) 0 0, s (quota .normal 64) 0 0, s (quota .warned 64) 0 0, s (quota .throttled 64) 0 0].map out =
        [([0, 0, 0, 0, 1], false, .normal, []), ([64, 0, 64, 0, 0], false, .normal, []), ([64, 0, 64, 0, 0], false, .warned, [.quotaWarning]),
          ([64, 0, 64, 0, 0], false, .warned, [.quotaWarning]), ([64, 0, 64, 0, 0], false, .throttled, [.quotaWarning, .quotaReached]),
          ([64, 0, 64, 0, 0], false, .throttled, [.quotaReached]), ([64, 0, 64, 0, 0], false, .throttled, [])] ∧
      [s { account with counts := { up := top - 64 } } 1024 0, s { account with counts := { up := top - 63 } } 1023 0, s { account with counts := { up := top - 63 } } 1024 0,
        s { account with carries := { up := 1 } } 1024 0].map out =
        [([top, 0, 64, 1024, 0], false, .normal, []), ([64, 0, 64, 1024, 0], false, .normal, []), ([top, 1, 64, 1024, 0], true, .normal, []),
          ([0, 65, 64, 1024, 0], true, .normal, [])] := by
  decide +kernel

/-! ## The billing journal -/

/-- A record of one home that closes. -/
def closing : Record := recordOf morning 0 3 .interval false none

/-- A READY journal writing sector 4 at slot 300, with sector 3 FULL of what `array` holds; `n` records wait. -/
def writing (n : Nat) (f : Journal → Journal := id) : State :=
  let j := (((Journal.afterReset (Vector.replicate 32 .reset) []).modSector 4 (fun x => { x with state := .inUse })).modSector 3 (fun x => { x with state := .full }))
  { State.reset with
    meter := { Meter.reset with queue := List.replicate n closing }
    journal := f { j with condition := .ready, writeSector := some 4, writePos := 300, next := 2349, highest := 2348
                          array := [(1536, { state := .written, contents := .whole 1700 closing }), (2347, { state := .written, contents := .whole 2348 closing })] } }

/-- An erase batch in a state. -/
def batch (st : BatchState) (current : Option (Fin 32)) (todo : List (Fin 32)) (suspends : Nat := 0) (j : Journal) : Journal :=
  { j with batch := { state := st, list := [0, 1], todo := todo, current := current, suspends := suspends } }

/-- The program of the first closing record at slot 300. -/
def programming (r : Record) (j : Journal) : Journal := { j with program := some { record := r, seq := j.next, sector := 4, slot := 300 } }

/-- What runs: the slot of the program under way, and the batch. -/
def runs (s : State) : Option Nat × BatchState × Option (Fin 32) × Nat :=
  (s.journal.program.map (fun p => p.slot), s.journal.batch.state, s.journal.batch.current, s.journal.batch.suspends)

/-- R168, R172, R180: each batch state, the suspend counts 63 and 64, a FULL journal, and the retry in it. -/
theorem witness_ProgramsStartOrSuspendTheErase :
    let out := fun (s : State) => runs (after .programStart s)
    let fullJ := fun (s : State) => { s with journal := { s.journal with condition := .full } }
    let marked := fun (n : Nat) => { writing 0 with meter := { Meter.reset with mark := some (markRecord n none) } }
    (writing 1).inReset = false ∧ (writing 1).journal.program = none ∧ (writing 1).meter.head = some closing ∧ (writing 1).journal.writeSector = some 4 ∧
      (writing 1).journal.next < 4294967295 ∧
      [writing 1, writing 1 (batch .gathering none [0]), writing 1 (batch .suspended (some 0) []), writing 1 (batch .erasing (some 0) [1] 63),
        writing 1 (batch .erasing (some 0) [1] 64), writing 1 (batch .erasing none [1]), writing 1 (batch .suspending (some 0) [] 9), fullJ (writing 1)].map out =
        [(some 300, .none, none, 0), (some 300, .gathering, none, 0), (some 300, .suspended, some 0, 0), (none, .suspending, some 0, 64), (none, .erasing, some 0, 64),
          (none, .erasing, none, 0), (none, .suspending, some 0, 9), (none, .none, none, 0)] ∧
      [fullJ { writing 1 with meter := { (writing 1).meter with headHeld := true } }, fullJ (marked 1700), fullJ (marked 1699)].map (fun s => (out s).1) =
        [some 300, some 300, none] ∧
      (after .programStart (marked 1700)).meter.mark = none := by
  decide +kernel

/-- 9.7: the MARK of 1,700 is verified: the export mark follows it, sector 3 is ERASE_PENDING, and the next record starts; a record that is
verified leaves the queue to the record of the due list. -/
theorem witness_VerifiedProgramsAreWrittenInRingOrder :
    let mark := fun (n : Nat) => { writing 1 (programming (markRecord n none)) with meter := { (writing 1).meter with headMark := some (markRecord n none) } }
    let due := { (writing 1 (programming closing)).modSlot 0 9 (fun x => { x with account := .due { closing with line := 9 } none }) with
      meter := { (writing 1).meter with headHeld := true, due := [(0, 9)] } }
    let out := fun (s : State) => after (.programVerify 4 300) s
    due.inReset = false ∧ due.journal.program = some { record := closing, seq := 2349, sector := 4, slot := 300 } ∧ closing.kind = .interval ∧
      storeGet (out due).journal.array 2348 = some { state := .written, contents := .whole 2349 closing } ∧
      ((out due).journal.highest, (out due).journal.next, (out due).journal.writePos, (out due).journal.programmed) = (2349, 2350, 301, 1) ∧
      (out due).meter.queue = [{ closing with line := 9 }] ∧ (out due).meter.due = [] ∧ ((out due).slot 0 9).account = .empty ∧
      ((out (mark 1700)).journal.exportMark, (out (mark 1700)).journal.stateOf 3, (out (mark 1700)).journal.batch.state) = (1700, .erasePending, .gathering) ∧
      ((out (mark 1699)).journal.exportMark, (out (mark 1699)).journal.stateOf 3) = (1699, .full) ∧ runs (out (mark 1700)) = (some 301, .gathering, none, 0) ∧
      (after (.programVerify 4 301) due).journal.highest = 2348 ∧ (after (.programTimeout 5 300) due).journal.failures = 0 := by
  decide +kernel

/-- The program stands in the last slot of the write sector. -/
def lastSlot (f : Journal → Journal) : State :=
  writing 1 (fun j => f { j with writePos := 511, program := some { record := closing, seq := 2349, sector := 4, slot := 511 } })

/-- R171: the write sector fills: marked for retirement, below the export mark, above it, and with no ERASED sector after it but 3 behind. -/
theorem witness_VerifiedProgramsAreWrittenInRingOrder_fill :
    let out := fun (f : Journal → Journal) => (after (.programVerify 4 511) (lastSlot f)).journal
    let see := fun (j : Journal) => (j.stateOf 4, j.writeSector, j.writePos)
    let only := fun (k : Fin 32) (j : Journal) => { j with sectors := (Vector.replicate 32 { Sector.reset with state := .retired }).set 4 { Sector.reset with state := .inUse } |>.set k .reset }
    (lastSlot id).journal.batch.current = none ∧ storeGet (lastSlot id).journal.array (slotKey 4 511) = none ∧ (lastSlot id).journal.stateOf 5 = .erased ∧
      [out (fun j => j.modSector 4 (fun x => { x with retireOnFill := true })), out (fun j => { j with exportMark := 2349 }), out (fun j => { j with exportMark := 2348 }),
        out (only 3), out (fun j => (only 3 j).modSector 3 (fun x => { x with state := .retired }))].map see =
        [(.retired, some 5, 0), (.erasePending, some 5, 0), (.full, some 5, 0), (.full, some 3, 0), (.full, none, 0)] := by
  decide +kernel

/-- R164, R168: the verify of a program whose timeout has been taken, at its slot and elsewhere, and a second one (log entry 70). -/
theorem witness_VerifiedProgramsAreWrittenInRingOrder_late :
    let s := after (.programTimeout 4 300) { writing 1 (programming closing) with meter := { (writing 1).meter with headHeld := true } }
    let u := after (.programVerify 4 300) s
    s.inReset = false ∧ s.journal.late = [{ record := closing, seq := 2349, sector := 4, slot := 300 }] ∧
      (storeGet s.journal.array 2348).map (fun c => c.state) = some .bad ∧ s.journal.program.map (fun p => p.slot) = some 301 ∧
      storeGet u.journal.array 2348 = some { state := .bad, contents := .whole 2349 closing } ∧ u.journal.late = [] ∧
      u.journal.program = s.journal.program ∧ (u.journal.next, u.journal.programmed) = (2349, 0) ∧
      [after (.programVerify 4 302) s, after (.programVerify 5 300) s].all (fun v => decide (v.journal.late = s.journal.late)) = true ∧
      storeGet (after (.programVerify 4 300) u).journal.array 2348 = some { state := .bad, contents := .whole 2349 closing } ∧
      (after (.programVerify 4 301) s).journal.next = 2350 := by
  decide +kernel

/-- Sector 4 holds one record and has `left` ERASED slots, at its end, the first of them being programmed; sector 3 stands in `other`, and the rest
are RETIRED. -/
def reserved (left : Nat) (other : SectorState) (retire : Bool := false) (next : Nat := 2349) : State :=
  let s := writing 1 (fun j => { j with
    sectors := ((Vector.replicate 32 { Sector.reset with state := .retired }).set 3 { Sector.reset with state := other }).set 4
      { Sector.reset with state := .inUse, retireOnFill := retire }
    array := (slotKey 4 0, { state := .written, contents := .whole 2348 closing }) ::
      (List.range (511 - left)).map (fun i => (slotKey 4 (i + 1), { state := .torn, contents := .damaged })), writePos := 512 - left, next := next
    program := some { record := closing, seq := next, sector := 4, slot := 512 - left } })
  { s with meter := { s.meter with headHeld := true } }

/-- The condition and its cause, the program that runs, and the notices, the one that goes out first. -/
def conditionOf (s : State) : Condition × Option FullCause × Option Nat × List NoticeKind :=
  (s.journal.condition, s.journal.cause, s.journal.program.map (fun p => p.slot),
    (match sends s with | some (.inr k) => [k] | _ => []) ++ noticeKinds s)

/-- The condition after a verify of the program in the first of the `left` slots. -/
def afterVerify (left : Nat) (s : State) := conditionOf (after (.programVerify 4 (Fin.ofNat 512 (512 - left))) s)

/-- The condition after its timeout. -/
def afterTimeout (left : Nat) (s : State) := conditionOf (after (.programTimeout 4 (Fin.ofNat 512 (512 - left))) s)

/-- R172: a verify that leaves 9 slots, and 8 with a FULL, an ERASE_PENDING and no usable sector. -/
theorem witness_VerifiedProgramsAreWrittenInRingOrder_condition :
    (reserved 9 .full).inReset = false ∧ (reserved 9 .full).journal.condition = .ready ∧ (reserved 9 .full).meter.headMark = none ∧
      (reserved 1 .full true).programRetires { record := closing, seq := 2349, sector := 4, slot := 511 } = true ∧
      [afterVerify 10 (reserved 10 .full), afterVerify 9 (reserved 9 .full), afterVerify 9 (reserved 9 .erasePending), afterVerify 9 (reserved 9 .retired)] =
        [(.ready, none, none, []), (.full, some .noSector, none, [.journalFull]),
          (.full, some .noSector, none, [.journalFull]), (.stopped, some .stopped, none, [.journalFull])] := by
  decide +kernel

/-- R167, R171, R172: a verify that fills the sector with each of them, and with its retire-on-fill mark; and the last sequence number but one. -/
theorem witness_VerifiedProgramsAreWrittenInRingOrder_condition_fill :
    [afterVerify 1 (reserved 1 .erasePending), afterVerify 1 (reserved 1 .full), afterVerify 1 (reserved 1 .full true),
        afterVerify 20 (reserved 20 .full false 4294967293), afterVerify 20 (reserved 20 .full false 4294967294)] =
        [(.full, some .noSector, none, [.journalFull]), (.stopped, some .stopped, none, [.journalFull]),
          (.stopped, some .stopped, none, [.sectorRetired, .journalFull]), (.ready, none, none, []), (.stopped, some .stopped, none, [.journalFull])] := by
  decide +kernel

/-- R171, R172: a timeout that leaves 9 and 8 slots, its retry then in the reserve; one that fills the sector; and the eighth BAD slot of a sector
that fills. -/
theorem witness_FailedProgramsAreRetried_condition :
    let eighth := (reserved 1 .erasePending).modJournal (fun j => j.modSector 4 (fun x => { x with bad := 7 }))
    [afterTimeout 10 (reserved 10 .retired), afterTimeout 9 (reserved 9 .retired), afterTimeout 1 (reserved 1 .erasePending),
        afterTimeout 1 (reserved 1 .retired), afterTimeout 1 eighth] =
      [(.ready, none, some 503, []), (.full, some .noSector, some 504, [.journalFull]),
        (.full, some .noSector, none, [.journalFull]), (.stopped, some .stopped, none, [.journalFull]),
        (.full, some .noSector, none, [.sectorRetired, .journalFull])] := by
  decide +kernel

/-- R172, R179: the erase timeout of a sector while another is ERASED, and in a FULL journal without a write sector, with and without another that
is ERASE_PENDING. -/
theorem witness_EraseStepsAndSuspensions_condition :
    let s := fun (f : Journal → Journal) => writing 0 (fun j => batch .erasing (some 3) [] 0 (f (j.modSector 3 (fun x => { x with state := .erasePending }))))
    let full := fun (other : SectorState) (j : Journal) => { j with condition := .full, cause := some .noSector, writeSector := none
                                                                    sectors := (Vector.replicate 32 { Sector.reset with state := .retired }).set 6 { Sector.reset with state := other } }
    (s id).inReset = false ∧ (s id).journal.condition = .ready ∧ (s id).meter.head = none ∧ (s id).journal.batch.current = some 3 ∧ (s id).storesWf = true ∧
      [s id, s (full .erasePending), s (full .full)].map (fun s => conditionOf (after (.eraseTimeout 3) s)) =
        [(.ready, none, none, [.sectorRetired]), (.full, some .noSector, none, [.sectorRetired]),
          (.stopped, some .stopped, none, [.sectorRetired, .journalFull])] := by
  decide +kernel

/-- R183: the reserve while no sector is ERASED, with 511 slots left and with 7, and none while one is. -/
theorem witness_JournalRequestsAnswer_reserve :
    let reserve := fun (s : State) => (s.journal.view 1).reserve
    (reserved 511 .full).ready (ctl 15) .readJournalState = true ∧ (reserved 511 .full).journal.writeSector = some 4 ∧
      (reserved 511 .full).journal.writePos = 1 ∧ (storeGet (reserved 511 .full).journal.array (slotKey 4 0)).isSome = true ∧
      [reserved 511 .full, reserved 7 .full, reserved 511 .erased].map reserve = [some 8, some 7, none] := by
  decide +kernel

/-- Table 1-9: the record check of a craft record word is the 16-bit check over bytes 0..37, and a record without a number has none. -/
theorem test_craft_record_check :
    closing.check 1700 = (check16 ((closing.bytes 1700).take 38)).toNat ∧ (closing.parts (some 1700)).length = 16 ∧
      (closing.parts none).getLast? = some (ascii "none") := by
  decide +kernel

/-- R170: the eighth BAD slot of a sector marks it, and the retry starts in the next slot. -/
theorem witness_FailedProgramsAreRetried :
    let s := { writing 1 (fun j => programming closing (j.modSector 4 (fun x => { x with bad := 7 }))) with meter := { (writing 1).meter with headHeld := true } }
    let u := after (.programTimeout 4 300) s
    s.inReset = false ∧ s.journal.writeSector = some 4 ∧ s.journal.condition = .ready ∧ s.meter.headMark = none ∧ s.meter.queue.head? = some closing ∧
      ((u.journal.sectors[(4 : Fin 32)]).bad, (u.journal.sectors[(4 : Fin 32)]).retireOnFill, u.journal.failures) = (8, true, 1) ∧
      u.journal.program = some { record := closing, seq := 2349, sector := 4, slot := 301 } ∧ u.meter.queue = [closing] := by
  decide +kernel

/-- 9.7: the accept window ends; a suspension; the erases end; a FULL journal without a write sector. -/
theorem witness_EraseStepsAndSuspensions :
    let pending := fun (f : Journal → Journal) (n : Nat) => writing n (fun j =>
      f ((j.modSector 0 (fun x => { x with state := .erasePending })).modSector 1 (fun x => { x with state := .erasePending })))
    let fullJ := fun (j : Journal) => { batch .erasing (some 0) [] 3 j with condition := .full, writeSector := none }
    (pending (batch .gathering none [0, 1]) 0).inReset = false ∧ (pending (batch .gathering none [0, 1]) 0).meter.head = none ∧ (pending id 0).storesWf = true ∧
      [after .acceptWindowEnd (pending (batch .gathering none [0, 1] 5) 0), after .acceptWindowEnd (pending (fun j => programming closing (batch .gathering none [0, 1] 5 j)) 1),
        after .acceptWindowEnd (pending (batch .erasing (some 0) [1]) 0), after (.eraseComplete 0) (pending (batch .erasing (some 0) [1] 2) 0),
        after (.eraseComplete 1) (pending (batch .erasing (some 0) [1] 2) 0), after (.eraseComplete 0) (pending (batch .suspending (some 0) [1] 2) 1),
        after .suspendEvent (pending (batch .suspending (some 0) [1] 2) 0), after .suspendEvent (pending (batch .suspending (some 0) [1] 2) 1),
        after .suspendEvent (pending (batch .erasing (some 0) [1] 2) 1)].map runs =
        [(none, .erasing, some 0, 0), (some 300, .erasing, none, 0), (none, .erasing, some 0, 0), (none, .erasing, some 1, 2), (none, .erasing, some 0, 2),
          (some 300, .erasing, none, 2), (none, .erasing, some 0, 2), (some 300, .suspended, some 0, 2), (none, .erasing, some 0, 2)] ∧
      ((after (.eraseComplete 0) (pending fullJ 0)).journal.condition, (after (.eraseComplete 0) (pending fullJ 0)).journal.writeSector) = (.ready, some 0) := by
  decide +kernel

/-- The journal of the scan of 9.7, in small: a damaged slot, a repeat of a number, a MARK, and a retirement marker. -/
def scanning : State :=
  { State.reset with journal :=
      { Journal.afterReset ((Vector.replicate 32 Sector.reset).set 9 { Sector.reset with marker := true })
          [(1536, { state := .torn, contents := .whole 2048 closing }), (1537, { state := .torn, contents := .damaged }), (2348, { state := .bad, contents := .blank }),
           (2349, { state := .written, contents := .whole 2048 closing }), (2353, { state := .torn, contents := .whole 2354 (markRecord 2353 none) }),
           (2354, { state := .torn, contents := .damaged })] with condition := .scanning } }

/-- 9.7: the items the scan finds. -/
theorem witness_TheScanRebuildsTheJournal :
    let u := after .scanComplete scanning
    let j := u.journal
    scanning.inReset = false ∧ scanning.journal.condition = .scanning ∧ scanning.journal.batch.current = none ∧ scanning.storesWf = true ∧
      (j.highest, j.next, j.exportMark, j.requested) = (2354, 2355, 2353, 2353) ∧ (j.writeSector, j.writePos) = (some 4, 307) ∧
      [3, 4, 9, 0].map j.stateOf = [.erasePending, .inUse, .retired, .erased] ∧ (j.sectors[(4 : Fin 32)]).bad = 2 ∧ (j.batch.state, j.batch.list) = (.gathering, [3]) ∧
      storeGet j.array 2348 = none ∧ (storeGet j.array 2349).map (fun c => c.state) = some .torn ∧ (storeGet j.array 1536).map (fun c => c.state) = some .written ∧
      (u.links.controller.journalCursor, u.links.craft.journalCursor) = (2354, 2354) ∧
      sends u = some (.inr .partReady) := by
  decide +kernel

/-- A scan of the cells given, with the retirement markers given. -/
def scanned (array : List (Nat × Cell)) (retired : List (Fin 32)) : Journal :=
  (after .scanComplete { State.reset with journal :=
    { Journal.afterReset (Vector.ofFn (fun k => { Sector.reset with marker := decide (k ∈ retired) })) array with condition := .scanning } }).journal

/-- R172, R182: no record at all, with sector 0 retired; the newest record in the last slot of a sector, with the next sector retired; in a retired
sector; one ERASED sector less than all retired; and every sector but the newest record's retired, with 9 and 8 ERASED slots left in it. -/
theorem witness_TheScanRebuildsTheJournal_write_sector :
    let cell := fun (seq : Nat) => ({ state := .torn, contents := .whole seq closing } : Cell)
    let others := (List.finRange 32).filter (fun k => k ≠ 4)
    let see := fun (j : Journal) => (j.writeSector, j.writePos, j.condition)
    [scanned [] [0], scanned [(slotKey 4 511, cell 9)] [5], scanned [(slotKey 4 300, cell 9)] [4], scanned [] others,
        scanned [(slotKey 4 502, cell 9)] others, scanned [(slotKey 4 503, cell 9)] others, scanned [(slotKey 4 511, cell 9)] others].map see =
      [(some 1, 0, .ready), (some 6, 0, .ready), (some 5, 0, .ready), (some 4, 0, .ready), (some 4, 503, .ready), (some 4, 504, .stopped), (none, 0, .stopped)] := by
  decide +kernel

/-- R173 to R175, R183: SCANNING, reads and seeks at and beyond the last record, and marks below, at and above the highest number. -/
theorem witness_JournalRequestsAnswer :
    let s := writing 0
    let scan := State.reset
    let all := fun (s : State) => [Instr.readJournal (ctl 15), .seekJournal (ctl 15) 1700, .exportDone (ctl 15) 9, .readJournalState (ctl 15)].map (fun c => code (after c s))
    [ReqKind.readJournal, .seekJournal, .exportDone, .readJournalState].all (s.ready (ctl 15)) = true ∧ s.journal.condition = .ready ∧
      all scan = [some .busy, some .busy, some .busy, some .busy] ∧ all s = [some .done, some .done, some .done, some .done] ∧
      [after (.readJournal (ctl 15)) s, after (.seekJournal (ctl 15) 1700) s, after (.seekJournal (ctl 15) 1701) s, after (.seekJournal (ctl 15) 2349) s,
        after (.seekJournal (ctl 15) 0) s, after (.exportDone (ctl 15) 0) s, after (.exportDone (ctl 15) 1600) s, after (.exportDone (ctl 15) 2349) s].map (fun u => (values u, field u)) =
        [(some (.journal [(1700, closing), (2348, closing)] 2349), none), (some (.seek 1700 true), none), (some (.seek 2348 true), none), (some (.seek 2349 false), none),
          (some (.seek 1700 true), some 1), (some (.mark 0), none), (some (.mark 1600), none), (some (.mark 2348), some 1)] ∧
      (after (.exportDone (ctl 15) 1600) s).meter.mark = some (markRecord 1600 none) ∧ (after (.exportDone (ctl 15) 1600) s).journal.requested = 1600 := by
  decide +kernel

theorem witness_EveryStepKeepsTheEraseLaw :
    let s := (writing 0 (fun j => { batch .erasing (some 3) [] 0 (j.modSector 3 (fun x => { x with state := .erasePending })) with exportMark := 1700, requested := 1700 }))
    s.journal.condition ≠ .scanning ∧ s.journal.batch.current = some 3 ∧ keySector 1536 = 3 ∧ s.storesWf = true ∧
      storeGet s.journal.array 1536 = some { state := .written, contents := .whole 1700 closing } ∧ 1700 ≤ s.journal.exportMark ∧ s.meter.queue = [] := by
  decide +kernel

/-- R172: in the reserve with every other sector retired, no record may take a slot, and the journal is STOPPED; with one ERASED slot more it is
not. -/
theorem test_reserve_stops :
    let j := fun (left : Nat) => ({ (writing 1).journal with
      sectors := (Vector.replicate 32 { Sector.reset with state := .retired }).set 4 { Sector.reset with state := .inUse }
      array := (List.range (512 - left)).map (fun i => (slotKey 4 i, { state := .torn, contents := .damaged })), writePos := 512 - left } : Journal)
    (j 8).judgedCondition false = .stopped ∧ (j 9).judgedCondition false = .ready ∧ (j 8).judgedCondition true = .full := by
  decide +kernel

/-- R181: a program of slot 300 of sector 4 and an erase of sector 3 are under way, and a record stands beside that slot. -/
theorem witness_ResetsHoldThePartUntilTheirEnd_journal :
    let s := writing 1 (fun j => programming closing (batch .erasing (some 3) [] 0 j))
    s.journal.program.map (fun p => slotKey p.sector p.slot) = some 2348 ∧ s.journal.batch.current = some 3 ∧ keySector 2347 ≠ 3 ∧
      storeGet s.journal.array 2347 = some { state := .written, contents := .whole 2348 closing } ∧ 999 < 1000 := by
  decide +kernel

/-! ## The tree -/

/-- R195: fall below rise on all trees named, the ERT with a slot in use and with none, values at and beyond their ranges. -/
theorem witness_TreeSettingsAreSetAndRead :
    let s := lone (home .active)
    let set := fun (tree : Nat) (f : TreeFields) => after (.setTree (ctl tree) f) s
    let windowed := s.modTree 0 (fun T => { T with engine := { T.engine with window := some (window false) } })
    s.ready (ctl 0) .setTree = true ∧ s.ready (ctl 0) .readTree = true ∧
      [set 4 {}, set 14 {}, set 15 { fall := some 8 }, set 15 { rise := some 2 }, set 15 { ert := some 27999 }, after (.readTree (ctl 4)) s, set 15 { rise := some 3 },
        set 0 { ert := some 28000 }, set 1 { ert := some 30000 }, set 1 { di := some 16, hold := some 3600, reach := some 40, overhead := some 64, span := some 4 }, after (.readTree (ctl 3)) s].map code =
        [some .badValue, some .badValue, some .badValue, some .badValue, some .conflict, some .badValue, some .done, some .done, some .done, some .done, some .done] ∧
      [set 1 { di := some 15 }, set 1 { hold := some 3601 }, set 1 { reach := some 41 }, set 1 { ert := some 2999 }, set 1 { overhead := some 7 }, set 1 { statusInterval := some 0 },
        set 1 { rise := some 65 }, set 1 { rise := some 64, fall := some 64 }, set 1 { span := some 65 }].map field =
        [some 3, some 4, some 5, some 6, some 7, some 8, some 9, some 10, some 12] ∧
      ((after (.setTree (ctl 0) { discovery := some false }) windowed).tree 0).engine.skipped = 1 ∧
      [0, 1, 3].map (fun t => ((set 1 { di := some 15 }).tree t).settings.di) = [64, 16, 64] := by
  decide +kernel

/-- R194: the tree is emptied and its account closed, its settings and lists kept, and the other trees left alone. -/
theorem witness_ARestartEmptiesItsTreeAlone :
    let s := { lone (home .active) (fun T => expecting [statusGrant 3 1000] { T with
        started := true, settings := { T.settings with di := 99 }, traffic := { T.traffic with uplink := [(3, packet 64), (3, packet 65)], noHome := 5 } }) with
      trunk := { Trunk.reset with sending := some 0 }, time := { Timebase.reset with frame := 9 } }
    let u := after (.restartTree (ctl 0)) s
    s.ready (ctl 0) .restartTree = true ∧ [after (.restartTree (ctl 4)) s, after (.restartTree (ctl 15)) s, after (.restartTree (ctl 3)) s, u].map code =
        [some .badValue, some .badValue, some .done, some .done] ∧
      u.slot 0 3 = Slot.free ∧ u.meter.queue.map (fun r => (r.kind, r.line)) = [(.treeRestart, 3)] ∧ bodies u = [] ∧
      ((u.tree 0).settings.di, (u.tree 0).receiver.lists.length, (u.tree 0).watch.first, (u.tree 0).traffic.noHome) = (99, 1, 10, 0) ∧
      (u.tree 0).traffic.uplink = [(3, packet 64)] ∧ (u.tree 0).framer.urgent = [.dismissAll] ∧ u.trunk.sending = some 0 ∧
      ((after (.restartTree (ctl 3)) s).slot 0 3).state = .active := by
  decide +kernel

/-- R39, R194: the accounts of two lines, the first with carries, with 1,021 to 1,024 records waiting, and a LISTED entry. -/
theorem witness_ARestartEmptiesItsTreeAlone_accounts :
    let a := { account with carries := { up := 1 } }
    let s := fun (n : Nat) => ((queued n (lone { home .active with account := .opened a })).modSlot 0 9 (fun _ => { home .lost with link := some 32 })).withDirectory
      [(28, { serial := 7, body := .present 0 3 .opened false none }), (32, { serial := 8, body := .present 0 9 (.listed (some 2)) true (some 5) })]
    let u := fun (n : Nat) => after (.restartTree (ctl 0)) (s n)
    let r := recordOf a 0 3 .treeRestart false none
    let r2 := { r with counts := { up := 1 } }
    let q := recordOf account 0 9 .treeRestart false none
    bodies (u 0) = [(32, .expected (some 2) true)] ∧
      [1021, 1022, 1023, 1024].map (fun n => ((u n).meter.queue.drop n, (u n).meter.due, (u n).meter.dueCloses, ((u n).slot 0 3).account, ((u n).slot 0 9).account)) =
        [([r, r2, q], [], 0, .empty, .empty), ([r, r2], [(0, 9)], 1, .empty, .due q none), ([r], [(0, 3), (0, 9)], 2, .due r2 none, .due q none),
          ([], [(0, 3), (0, 9)], 2, .due r (some r2), .due q none)] := by
  decide +kernel

/-- R185, R189: the line of READ_PERMISSION has OK and one word for each of the 37 entries, and is short enough to be sent. -/
theorem test_craft_permission_line :
    let line := ((after (.readPermission (craft 15)) (after (.setPermission (ctl 15) 13 true) State.reset)).links.craft.sending.bind TxItem.line).getD []
    line.count 0x20 = 37 ∧ line.length ≤ 1200 ∧ line.take 50 = ascii "OK kind=IDENTIFY:on:off kind=RESTART_PART:off:on k" := by
  decide +kernel

/-- R185: the reply lines of the craft link. -/
theorem test_craft_reply_lines :
    let line := fun (c : Instr) (s : State) => ((after c s).links.craft.sending.bind TxItem.line)
    line (.readTariff (craft 15)) State.reset = some (ascii "OK points= band=0 clock=unset" ++ [0x0D, 0x0A]) ∧
      line (.readClock (craft 15)) (metered account (some { day := 120, second := 68400 }) schedule) =
        some (ascii "OK clock=120:68400 band=2 last_second=none" ++ [0x0D, 0x0A]) ∧
      line (.restartPart (craft 15)) State.reset = some (ascii "ERR DENIED" ++ [0x0D, 0x0A]) ∧
      line (.setService (craft 0) 3 { w := some 0 }) (lone (home .active)) = some (ascii "CLAMPED w count=1" ++ [0x0D, 0x0A]) := by
  decide +kernel

end Sys2Proof.Tests
end

section
/-! PROOFS. READ_HOME (R24): which identifiers name a slot, what the view of a slot holds, and that the request in hand does not disturb it. -/

namespace Sys2Proof.Machine

/-! ## The tree and line of a request -/

theorem treeAndLine_of_outside {tree line : Nat} (out : 4 ≤ tree ∨ 128 ≤ line) : treeAndLine tree line = none := by
  rcases out with tree_out | line_out
  · simp [treeAndLine, oneTree, Nat.not_lt.2 tree_out]
  · simp [treeAndLine, oneLine, Nat.not_lt.2 line_out]

@[simp] theorem treeAndLine_val (t : TreeId) (l : Line) : treeAndLine t.val l.val = some (t, l) := by
  simp [treeAndLine, oneTree, oneLine]

/-! ## The entry a slot's link names -/

theorem State.linkedEntry_of_unlinked {s : State} {t : TreeId} {l : Line} (unlinked : (s.slot t l).link = none) :
    s.linkedEntry t l = none := by
  rw [State.linkedEntry, unlinked]
  rfl

theorem State.linkedEntry_of_link {s : State} {t : TreeId} {l : Line} {p : Nat} (linked : (s.slot t l).link = some p) :
    s.linkedEntry t l = storeGet s.directory p := by
  rw [State.linkedEntry, linked]
  rfl

theorem State.serialOf_of_unlinked {s : State} {t : TreeId} {l : Line} (unlinked : (s.slot t l).link = none) : s.serialOf t l = none := by
  rw [State.serialOf, State.linkedEntry_of_unlinked unlinked]
  rfl

theorem State.serialOf_of_entry {s : State} {t : TreeId} {l : Line} {p : Nat} {e : DirEntry} (linked : (s.slot t l).link = some p)
    (entry : storeGet s.directory p = some e) : s.serialOf t l = some e.serial := by
  rw [State.serialOf, State.linkedEntry_of_link linked, entry]
  rfl

theorem State.ageOf_of_present {s : State} {t u : TreeId} {l k : Line} {p : Nat} {e : DirEntry} {o : Origin} {pin : Bool} {age : Option Nat}
    (linked : (s.slot t l).link = some p) (entry : storeGet s.directory p = some e) (present : e.body = .present u k o pin age) :
    s.ageOf t l = age := by
  obtain ⟨serial, body⟩ := e
  cases present
  simp [State.ageOf, State.linkedEntry_of_link linked, entry]

/-! ## The view of a slot -/

theorem AccountPos.isDue_iff (a : AccountPos) : a.isDue = true ↔ ∃ r r2, a = .due r r2 := by
  cases a <;> simp [AccountPos.isDue]

theorem State.homeView_holdLeft_of_not_lost {s : State} {t : TreeId} {l : Line} (here : (s.slot t l).state ≠ .lost) :
    (s.homeView t l).holdLeft = none := by
  simp [State.homeView, here]

/-- The seconds left of a LOST home are the hold time less the age of its entry, 0 where the age is the greater (log entry 52). -/
theorem State.homeView_holdLeft_of_lost {s : State} {t : TreeId} {l : Line} {age : Nat} (lost : (s.slot t l).state = .lost)
    (aged : s.ageOf t l = some age) : (s.homeView t l).holdLeft = some ((s.tree t).settings.hold - age) := by
  simp [State.homeView, lost, aged]

/-- Taking a request in hand changes nothing that the view of a slot reads. -/
@[simp] theorem State.taken_homeView (s : State) (h : Head) (k : Byte) (t : TreeId) (l : Line) :
    (s.taken h k).homeView t l = s.homeView t l := by
  simp [State.homeView, State.serialOf, State.ageOf, State.linkedEntry]

/-! ## READ_HOME -/

theorem readHomeOwner_of_outside {tree line : Nat} (s : State) (out : 4 ≤ tree ∨ 128 ≤ line) :
    readHomeOwner tree line s = (s, { code := .badValue }) := by
  rw [readHomeOwner, treeAndLine_of_outside out]
  rfl

@[simp] theorem readHomeOwner_val (s : State) (t : TreeId) (l : Line) :
    readHomeOwner t.val l.val s = (s, { code := .done, values := .home (s.homeView t l) }) := by
  rw [readHomeOwner, treeAndLine_val]
  rfl

theorem exec_readHome (h : Head) (line : Nat) (s : State) :
    exec (.readHome h line) s = s.live fun s => s.request h .readHome (readHomeOwner h.tree line) := rfl

theorem exec_readHome_of_outside {s : State} {h : Head} {line : Nat} (hr : s.ready h .readHome = true) (out : 4 ≤ h.tree ∨ 128 ≤ line) :
    exec (.readHome h line) s = .next ((s.taken h ReqKind.readHome.byte).answer h .readHome { code := .badValue }) := by
  rw [exec_request (exec_readHome h line s) hr, readHomeOwner_of_outside _ out]

/-- In range, the answer is DONE with the view of the slot as it stood before the request. -/
theorem exec_readHome_of_slot {s : State} {h : Head} {t : TreeId} (l : Line) (hr : s.ready h .readHome = true) (ht : h.tree = t.val) :
    exec (.readHome h l.val) s =
      .next ((s.taken h ReqKind.readHome.byte).answer h .readHome { code := .done, values := .home (s.homeView t l) }) := by
  rw [exec_request (exec_readHome h l.val s) hr, ht, readHomeOwner_val, State.taken_homeView]

/-- Settles O21: the view answered is `homeView` of the slot; its fields not listed below are the slot's own by definition. -/
theorem readHomeGivesTheSlot : Obligations.ReadHomeGivesTheSlot := by
  intro s h line hr
  refine ⟨exec_readHome_of_outside hr, ?_⟩
  rintro t l ht rfl
  exact ⟨s.homeView t l, exec_readHome_of_slot l hr ht, rfl, rfl, State.serialOf_of_unlinked, fun _ _ => State.serialOf_of_entry,
    rfl, rfl, rfl, rfl, rfl, rfl, rfl, rfl, State.homeView_holdLeft_of_not_lost,
    fun _ _ _ _ _ _ _ lost linked entry present _ => State.homeView_holdLeft_of_lost lost (State.ageOf_of_present linked entry present),
    AccountPos.isDue_iff _⟩

end Sys2Proof.Machine
end

section
/-! PROOFS. READ_JOURNAL, SEEK_JOURNAL, EXPORT_DONE and READ_JOURNAL_STATE (R173 to R175, R183): BUSY while SCANNING, where a read and a seek leave
the cursor, the MARK record made, and what the view of the journal holds. -/

namespace Sys2Proof.Machine

/-! ## BUSY while SCANNING -/

/-- While SCANNING, a request that waits for the end of the scan is answered BUSY and does nothing else. -/
theorem exec_unlessScanning_busy {c : Instr} {s : State} {h : Head} {k : ReqKind} {f : State → State × Answer}
    (meaning : exec c s = s.live fun s => s.request h k (unlessScanning f)) (hr : s.ready h k = true)
    (scanning : s.journal.condition = .scanning) : exec c s = .next ((s.taken h k.byte).answer h k { code := .busy }) := by
  have busy : unlessScanning f (s.taken h k.byte) = (s.taken h k.byte, { code := .busy }) := by
    simp [unlessScanning, scanning, refused, refuse]
  rw [exec_request meaning hr, busy]

/-- Outside SCANNING, `f` takes the request. -/
theorem exec_unlessScanning_taken {c : Instr} {s : State} {h : Head} {k : ReqKind} {f : State → State × Answer}
    (meaning : exec c s = s.live fun s => s.request h k (unlessScanning f)) (hr : s.ready h k = true)
    (scanned : s.journal.condition ≠ .scanning) :
    exec c s = .next ((f (s.taken h k.byte)).1.answer h k (f (s.taken h k.byte)).2) := by
  have taken : unlessScanning f (s.taken h k.byte) = f (s.taken h k.byte) := by
    simp [unlessScanning, scanned]
  rw [exec_request meaning hr, taken]

/-! ## The answer of a request with one field that clamps -/

theorem settled_firstMarked_one (p : Prop) [Decidable p] (v : Values) :
    settled (firstMarked [(1, decide p)]) v =
      { code := if p then .clamped else .done, field := if p then some 1 else none, values := v } := by
  by_cases clamped : p <;> simp [firstMarked, settled, doneWith, clamped]

/-! ## READ_JOURNAL -/

/-- The cursor a read leaves: one past the last record it returned, or where it stood (R173). -/
def cursorPast (cursor : Nat) (rs : List (Nat × Record)) : Nat := ((rs.getLast?).map (fun r => r.1 + 1)).getD cursor

@[simp] theorem cursorPast_nil (cursor : Nat) : cursorPast cursor [] = cursor := rfl

theorem cursorPast_of_getLast? {cursor : Nat} {rs : List (Nat × Record)} {x : Nat × Record} (last : rs.getLast? = some x) :
    cursorPast cursor rs = x.1 + 1 := by
  simp [cursorPast, last]

theorem journalLimit_eq (k : Link) : journalLimit k = if k = .controller then 8 else 2 := by
  cases k <;> rfl

/-- Outside SCANNING, a read answers the records from its link's cursor on and moves the cursor past them. -/
theorem exec_readJournal_of_scanned {s : State} {h : Head} {rs : List (Nat × Record)} {cursor : Nat} (hr : s.ready h .readJournal = true)
    (scanned : s.journal.condition ≠ .scanning) (at_ : (s.link h.link).journalCursor = cursor)
    (found : readFrom s.journal.validCells (journalLimit h.link) cursor = rs) :
    exec (.readJournal h) s =
      .next (((s.taken h ReqKind.readJournal.byte).modLink h.link (fun x => { x with journalCursor := cursorPast cursor rs })).answer h
        .readJournal { code := .done, values := .journal rs (cursorPast cursor rs) }) := by
  rw [exec_unlessScanning_taken rfl hr scanned]
  simp only [State.taken_journal, State.taken_journalCursor, at_, found]
  rfl

/-! ## SEEK_JOURNAL -/

/-- Outside SCANNING, a seek moves its link's cursor to the record found, or past the highest number. -/
theorem exec_seekJournal_of_scanned {s : State} {h : Head} {seq : Nat} {found : Option (Nat × Record)} (hr : s.ready h .seekJournal = true)
    (scanned : s.journal.condition ≠ .scanning) (look : lowestFrom (max 1 (min seq 4294967295)) s.journal.validCells = found) :
    exec (.seekJournal h seq) s =
      .next (((s.taken h ReqKind.seekJournal.byte).modLink h.link
          (fun x => { x with journalCursor := (found.map (·.1)).getD (s.journal.highest + 1) })).answer h .seekJournal
        { code := if seq < 1 ∨ 4294967295 < seq then .clamped else .done
          field := if seq < 1 ∨ 4294967295 < seq then some 1 else none
          values := .seek ((found.map (·.1)).getD (s.journal.highest + 1)) found.isSome }) := by
  rw [exec_unlessScanning_taken rfl hr scanned]
  simp only [State.taken_journal, clampTo, look, outOfRange, settled_firstMarked_one]

/-- The record a seek finds stands at the lowest valid number at or above the one it starts from. -/
theorem lowestFrom_eq_of_least {from_ q : Nat} {r : Record} {cells : List (Nat × Nat × Record)} (valid : ∃ key, (key, q, r) ∈ cells)
    (reached : from_ ≤ q) (least : ∀ x y, (∃ key, (key, x, y) ∈ cells) → from_ ≤ x → q ≤ x) :
    ∃ w, lowestFrom from_ cells = some w ∧ w.1 = q := by
  obtain ⟨key, mem⟩ := valid
  cases look : lowestFrom from_ cells with
  | none => exact absurd reached (Nat.not_le.mpr (lowestFrom_none.mp look _ mem))
  | some w =>
    obtain ⟨found, at_or_above, lowest⟩ := lowestFrom_some look
    exact ⟨w, rfl, Nat.le_antisymm (lowest _ mem reached) (least w.1 w.2 found at_or_above)⟩

/-! ## EXPORT_DONE -/

/-- Outside SCANNING, a number at or below the requested mark changes nothing. -/
theorem exec_exportDone_of_requested {s : State} {h : Head} {seq : Nat} (hr : s.ready h .exportDone = true)
    (scanned : s.journal.condition ≠ .scanning) (low : min seq s.journal.highest ≤ s.journal.requested) :
    exec (.exportDone h seq) s =
      .next ((s.taken h ReqKind.exportDone.byte).answer h .exportDone
        { code := if s.journal.highest < seq then .clamped else .done
          field := if s.journal.highest < seq then some 1 else none, values := .mark s.journal.requested }) := by
  rw [exec_unlessScanning_taken rfl hr scanned]
  simp only [State.taken_journal, if_pos low, settled_firstMarked_one]

/-- Outside SCANNING, a number above the requested mark becomes it and stands in the MARK position. -/
theorem exec_exportDone_of_above {s : State} {h : Head} {seq : Nat} (hr : s.ready h .exportDone = true)
    (scanned : s.journal.condition ≠ .scanning) (above : s.journal.requested < min seq s.journal.highest) :
    exec (.exportDone h seq) s =
      .next (State.answer
        { s.taken h ReqKind.exportDone.byte with
          journal := { s.journal with requested := min seq s.journal.highest }
          meter := { s.meter with mark := some (markRecord (min seq s.journal.highest) s.meter.clock) } }
        h .exportDone
        { code := if s.journal.highest < seq then .clamped else .done
          field := if s.journal.highest < seq then some 1 else none, values := .mark (min seq s.journal.highest) }) := by
  rw [exec_unlessScanning_taken rfl hr scanned]
  simp only [State.taken_journal, if_neg (Nat.not_le.mpr above), settled_firstMarked_one, State.modJournal, State.modMeter, State.taken_meter]

/-! ## The view of the journal -/

theorem lowestOf_eq_min? (ns : List Nat) : lowestOf ns = ns.min? := by
  induction ns with
  | nil => rfl
  | cons n rest ih => cases low : rest.min? <;> simp [lowestOf, ih, low, List.min?_cons]

theorem highestOf_eq_max? (ns : List Nat) : highestOf ns = ns.max? := by
  induction ns with
  | nil => rfl
  | cons n rest ih => cases high : rest.max? <;> simp [highestOf, ih, high, List.max?_cons]

theorem lowestOf_of_mem {ns : List Nat} {q : Nat} (mem : q ∈ ns) : ∃ lo, lowestOf ns = some lo ∧ lo ≤ q ∧ lo ∈ ns := by
  obtain ⟨lo, low⟩ := Option.isSome_iff_exists.mp (List.isSome_min?_of_mem mem)
  obtain ⟨lo_mem, least⟩ := List.min?_eq_some_iff.mp low
  exact ⟨lo, (lowestOf_eq_min? ns).trans low, least q mem, lo_mem⟩

theorem highestOf_of_mem {ns : List Nat} {q : Nat} (mem : q ∈ ns) : ∃ hi, highestOf ns = some hi ∧ q ≤ hi ∧ hi ∈ ns := by
  obtain ⟨hi, high⟩ := Option.isSome_iff_exists.mp (List.isSome_max?_of_mem mem)
  obtain ⟨hi_mem, greatest⟩ := List.max?_eq_some_iff.mp high
  exact ⟨hi, (highestOf_eq_max? ns).trans high, greatest q mem, hi_mem⟩

/-- A sector with no valid record has neither a lowest nor a highest number. -/
theorem Journal.sectorView_of_none {j : Journal} {k : Fin 32} (none_valid : j.validSeqs k = []) :
    (j.sectorView k).lowest = none ∧ (j.sectorView k).highest = none := by
  simp [Journal.sectorView, none_valid, lowestOf, highestOf]

/-- The lowest and the highest number given bound the sector's valid numbers and are two of them. -/
theorem Journal.sectorView_bounds {j : Journal} {k : Fin 32} {q : Nat} (valid : q ∈ j.validSeqs k) :
    ∃ lo hi, (j.sectorView k).lowest = some lo ∧ (j.sectorView k).highest = some hi ∧ lo ≤ q ∧ q ≤ hi ∧
      lo ∈ j.validSeqs k ∧ hi ∈ j.validSeqs k := by
  obtain ⟨lo, low, lo_le, lo_mem⟩ := lowestOf_of_mem valid
  obtain ⟨hi, high, le_hi, hi_mem⟩ := highestOf_of_mem valid
  exact ⟨lo, hi, low, high, lo_le, le_hi, lo_mem, hi_mem⟩

/-- While some sector is ERASED there is no reserve (R172). -/
theorem Journal.view_reserve_of_erased {j : Journal} (cursor : Nat) (erased : ∃ k, j.stateOf k = .erased) : (j.view cursor).reserve = none := by
  simp [Journal.view, (j.someSector_iff .erased).mpr erased]

/-- With no ERASED slot before the write position, the slots left are all the ERASED slots of the write sector. -/
theorem Journal.erasedLeft_of_packed {j : Journal} {w : Fin 32} (writing : j.writeSector = some w)
    (packed : ∀ i, i < j.writePos → storeGet j.array (slotKey w i) ≠ none) :
    j.erasedLeft = ((List.range 512).filter (fun i => (storeGet j.array (slotKey w i)).isNone)).length := by
  simp only [Journal.erasedLeft, writing]
  refine congrArg List.length (List.filter_congr fun i _ => ?_)
  by_cases before : i < j.writePos
  · simp [Option.isNone_eq_false_iff.mpr (Option.isSome_iff_ne_none.mpr (packed i before))]
  · simp [Nat.not_lt.mp before]

theorem Journal.view_reserve_of_packed {j : Journal} {w : Fin 32} (cursor : Nat) (none_erased : ∀ k, j.stateOf k ≠ .erased)
    (writing : j.writeSector = some w) (packed : ∀ i, i < j.writePos → storeGet j.array (slotKey w i) ≠ none) :
    (j.view cursor).reserve = some (min 8 ((List.range 512).filter (fun i => (storeGet j.array (slotKey w i)).isNone)).length) := by
  have none_found : j.someSector .erased ≠ true := fun found => by
    obtain ⟨k, erased⟩ := (j.someSector_iff .erased).mp found
    exact none_erased k erased
  simp only [Journal.view, if_neg none_found, Journal.erasedLeft_of_packed writing packed]

theorem Journal.view_sectors_length (j : Journal) (cursor : Nat) : (j.view cursor).sectors.length = 32 := by
  simp [Journal.view, allSectors]

theorem Journal.view_sectors_get (j : Journal) (cursor : Nat) (k : Fin 32) : (j.view cursor).sectors[k.val]? = some (j.sectorView k) := by
  simp [Journal.view, allSectors]

/-! ## READ_JOURNAL_STATE -/

/-- Outside SCANNING, the journal is answered as it stood before the request. -/
theorem exec_readJournalState_of_scanned {s : State} {h : Head} (hr : s.ready h .readJournalState = true)
    (scanned : s.journal.condition ≠ .scanning) :
    exec (.readJournalState h) s =
      .next ((s.taken h ReqKind.readJournalState.byte).answer h .readJournalState
        { code := .done, values := .journalState (s.journal.view (s.link h.link).journalCursor) }) := by
  rw [exec_unlessScanning_taken rfl hr scanned]
  simp only [State.taken_journal, State.taken_journalCursor, doneWith]

/-! ## The four requests -/

/-- Settles O57: what a read finds is `readFrom_spec`, what a seek finds `lowestFrom_none` and `lowestFrom_eq_of_least`; the fields of the state view
not listed below are the journal's own by definition. -/
theorem journalRequestsAnswer : Obligations.JournalRequestsAnswer := by
  intro s h
  refine ⟨fun hr => ⟨exec_unlessScanning_busy rfl hr, fun scanned => ?read⟩,
    fun hr seq => ⟨exec_unlessScanning_busy rfl hr, fun scanned => ⟨fun q r valid reached least => ?found, fun below => ?beyond⟩⟩,
    fun hr seq => ⟨exec_unlessScanning_busy rfl hr, fun scanned =>
      ⟨exec_exportDone_of_requested hr scanned, exec_exportDone_of_above hr scanned⟩⟩,
    fun hr => ⟨exec_unlessScanning_busy rfl hr, fun scanned => ?state⟩⟩
  case read =>
    have spec := readFrom_spec s.journal.validCells (journalLimit h.link) (s.link h.link).journalCursor
    generalize found : readFrom s.journal.validCells (journalLimit h.link) (s.link h.link).journalCursor = rs at spec
    rw [journalLimit_eq] at spec
    obtain ⟨short, rising, sound, complete⟩ := spec
    refine ⟨rs, cursorPast _ rs, exec_readJournal_of_scanned hr scanned rfl found, short, rising, sound, ?_, ?_, fun _ => cursorPast_of_getLast?⟩
    · rintro seq r ⟨key, mem⟩
      exact complete _ mem
    · rintro rfl
      exact cursorPast_nil _
  case found =>
    obtain ⟨w, look, rfl⟩ := lowestFrom_eq_of_least valid reached least
    exact exec_seekJournal_of_scanned hr scanned look
  case beyond =>
    exact exec_seekJournal_of_scanned hr scanned (lowestFrom_none.mpr fun v mem => below v.2.1 v.2.2 ⟨v.1, mem⟩)
  case state =>
    exact ⟨s.journal.view (s.link h.link).journalCursor, exec_readJournalState_of_scanned hr scanned,
      rfl, rfl, rfl, rfl, rfl, rfl, rfl, rfl, rfl, rfl, rfl, rfl, rfl, rfl, rfl, rfl, rfl, rfl, rfl,
      Journal.view_reserve_of_erased _, fun _ => Journal.view_reserve_of_packed _, Journal.view_sectors_length _ _,
      fun k => ⟨s.journal.sectorView k, Journal.view_sectors_get _ _ k, rfl, rfl, rfl, rfl,
        Journal.sectorView_of_none, fun _ => Journal.sectorView_bounds⟩⟩

end Sys2Proof.Machine
end
